-- ==== Sys2Proof/Word.lean ====
section
/-! DEFINITION. The words of the block: a byte (00_scope.md R7, R9) and a handler's tag (R6, 92_eei_decisions.md D6).
The block has no memory and no wider word (20_memory.md R30, R36). -/

namespace Sys2Proof

/-- An 8-bit unsigned value; bit 7 is the most significant (00_scope.md R7). -/
abbrev Byte := BitVec 8

/-- A handler as the wire names it: its tag (30_encoding.md R58). `HANDLER_W` is open, so a tag has no upper bound here
(log 6). The type `H` of what a slot holds (00_scope.md R6, R9) is an argument of `Machine.State` and of every meaning; this
is the value it has in the machine behind the host's interface. -/
structure Handler where
  tag : Nat
deriving DecidableEq, Repr

end Sys2Proof
end

