-- ==== Sys2Proof/Config.lean ====
section
/-! DEFINITION. The parameters of 00_scope.md R6 that have a value. The widths are in the types (`Byte`, the
operands of `Instr`); `H` and `HANDLER_W` are open, and so arguments (Machine/State.lean, WellFormed.lean); `BAUD` is not
modelled (R6, D20). -/

namespace Sys2Proof.Config

/-- `N_KINDS`, the number of Event Kinds and of Handler Table slots (R6, R17). -/
abbrev nKinds : Nat := 15

/-- The least value `HANDLER_W` may have (R6: "at least 1"). -/
def handlerWMin : Nat := 1

/-- `STATUS_THRESHOLD`, the smallest status byte (R6, 30_encoding.md R44). -/
def statusThreshold : Byte := 0x80#8

/-- `RT_BASE`, the smallest real-time byte (R6, 30_encoding.md R46). -/
def rtBase : Byte := 0xF8#8

/-- `CV_LO`, the lower end of the channel-voice status range (R6, 30_encoding.md R47). -/
def cvLo : Byte := 0x80#8

/-- `CV_HI`, the upper end of the channel-voice status range (R6, 30_encoding.md R47). -/
def cvHi : Byte := 0xEF#8

/-- `PLACEHOLDER`, data2 of a one-data-byte message (R6, 90_conflicts.md C2; log 7). -/
def placeholder : Byte := 0x00#8

/-- `RT_ARGS`, the (channel, data1, data2) of a real-time dispatch (R6, 30_encoding.md R56, D8; log 7). -/
def rtArgs : Byte × Byte × Byte := (0x00#8, 0x00#8, 0x00#8)

/-- `OK`, the success status and the count 0 (R6, 30_encoding.md R57). -/
def codeOk : Int := 0

/-- `E_BAD_EVENT_HANDLER`, the error status of REGISTER (R6, 60_exceptions.md R103). -/
def codeBadEventHandler : Int := -1

/-- `E_BAD_CHANNEL_STATE`, the error status of RECEIVE (R6, 60_exceptions.md R104). -/
def codeBadChannelState : Int := -2

end Sys2Proof.Config
end

