-- ==== Sys2Proof/Syntax.lean ====
section
/-! DEFINITION. The instructions: one constructor per row of spec/opcode_table.json. Seventeen are the classes of an
input byte (30_encoding.md R45 to R51), three are the host's operations (R58). -/

namespace Sys2Proof

/-- One row of the opcode table each, in the table's order. Operands have the widths the table's patterns give them. -/
inductive Instr where
  /-- DATA, `0ddddddd`: a data byte with payload `d` (43_data_bytes.md R87). -/
  | data (d : BitVec 7)
  /-- NOTE_OFF, `1000cccc` (42_channel_voice_status_bytes.md R80). -/
  | noteOff (c : BitVec 4)
  /-- NOTE_ON, `1001cccc` (R81). -/
  | noteOn (c : BitVec 4)
  /-- POLY_AFTERTOUCH, `1010cccc` (R82). -/
  | polyAftertouch (c : BitVec 4)
  /-- CONTROL_CHANGE, `1011cccc` (R83). -/
  | controlChange (c : BitVec 4)
  /-- PROGRAM_CHANGE, `1100cccc` (R84). -/
  | programChange (c : BitVec 4)
  /-- CHANNEL_AFTERTOUCH, `1101cccc` (R85). -/
  | channelAftertouch (c : BitVec 4)
  /-- PITCH_BEND, `1110cccc` (R86). -/
  | pitchBend (c : BitVec 4)
  /-- SYS_UNRECOGNISED, `11110xxx`: the low three bits are ignored (44_unrecognised_status_bytes.md R100). -/
  | sysUnrecognised (x : BitVec 3)
  /-- RT_CLOCK, 0xF8 (41_realtime_bytes.md R71). -/
  | rtClock
  /-- RT_F9, 0xF9 (R72). -/
  | rtF9
  /-- RT_START, 0xFA (R73). -/
  | rtStart
  /-- RT_CONTINUE, 0xFB (R74). -/
  | rtContinue
  /-- RT_STOP, 0xFC (R75). -/
  | rtStop
  /-- RT_FD, 0xFD (R76). -/
  | rtFD
  /-- RT_ACTIVE_SENSE, 0xFE (R77). -/
  | rtActiveSense
  /-- RT_RESET, 0xFF (R78). -/
  | rtReset
  /-- INIT, `OPSEL = 00` (40_host_operations_and_registry.md R64). -/
  | init
  /-- REGISTER, `OPSEL = 01`: the kind code, 8 bits unsigned, and the handler or none (R65). -/
  | register (kind : BitVec 8) (handler : Option Handler)
  /-- RECEIVE, `OPSEL = 10`: the received byte (R67). -/
  | receive (b : Byte)
deriving DecidableEq, Repr

end Sys2Proof
end

