-- ==== Sys2Proof/WellFormed.lean ====
section
/-! DEFINITION. Which instructions can stand on a wire whose handler tags have `W` bits. `HANDLER_W` is "OPEN, at least 1"
and "the model takes it as an argument" (00_scope.md R6), so it is an argument here. Every other operand has its exact width
in its type; a kind code of 15 or more is a legal operand, answered with -1 (40_ R65), and so not ill-formed. -/

namespace Sys2Proof

/-- `W` is a width `HANDLER_W` may have (R6). -/
def legalHandlerW (W : Nat) : Bool := decide (Config.handlerWMin ≤ W)

/-- A handler value fits a tag of `W` bits (30_encoding.md R58). -/
def Handler.fits (W : Nat) (h : Handler) : Bool := decide (h.tag < 2 ^ W)

/-- The one check an operand's type does not make: a registered handler's tag fits `W` bits. -/
def Instr.operandsFit (W : Nat) : Instr → Bool
  | .data _ => true
  | .noteOff _ => true
  | .noteOn _ => true
  | .polyAftertouch _ => true
  | .controlChange _ => true
  | .programChange _ => true
  | .channelAftertouch _ => true
  | .pitchBend _ => true
  | .sysUnrecognised _ => true
  | .rtClock => true
  | .rtF9 => true
  | .rtStart => true
  | .rtContinue => true
  | .rtStop => true
  | .rtFD => true
  | .rtActiveSense => true
  | .rtReset => true
  | .init => true
  | .register _ none => true
  | .register _ (some h) => h.fits W
  | .receive _ => true

/-- The instruction is one of a block with `HANDLER_W = W`: there is such a block, and the operands fit its wires. -/
def Instr.wellFormed (W : Nat) (i : Instr) : Bool := legalHandlerW W && i.operandsFit W

end Sys2Proof
end

