-- ==== Sys2Proof/Decode.lean ====
section
/-! DEFINITION. The encodings of 30_encoding.md: bit fields, the two encoding spaces of spec/opcode_table.json, the
decoder (total; it rejects by name), the encoder, and the opcode table as rows of mask and match. -/

namespace Sys2Proof

/-! ### Bit fields (R51) -/

/-- `b[7:4]`: the kind nibble of a channel-voice status byte. -/
def hiNibble (b : Byte) : BitVec 4 := b.extractLsb' 4 4

/-- `b[3:0]`: the channel of a channel-voice status byte. -/
def loNibble (b : Byte) : BitVec 4 := b.extractLsb' 0 4

/-- `b[7:3]`: the five bits that tell a real-time byte. -/
def hiFive (b : Byte) : BitVec 5 := b.extractLsb' 3 5

/-- `b[2:0]`: the kind index of a real-time byte. -/
def loThree (b : Byte) : BitVec 3 := b.extractLsb' 0 3

/-- `b[6:0]`: the payload of a data byte. -/
def loSeven (b : Byte) : BitVec 7 := b.extractLsb' 0 7

/-- `0ddddddd` (R44). -/
def dataByte (d : BitVec 7) : Byte := 0#1 ++ d

/-- `kkkkcccc` (R51). -/
def statusByte (nibble c : BitVec 4) : Byte := nibble ++ c

/-- `11110xxx` (44_ R100). -/
def unrecognisedByte (x : BitVec 3) : Byte := 0b11110#5 ++ x

/-- `11111kkk` (R52). -/
def realTimeByte (k : BitVec 3) : Byte := 0b11111#5 ++ k

/-! ### What a request looks like on the wire -/

/-- The operand ports of a wire-level operation (R58): the operation select, the kind, the handler as a valid bit and
a tag (`HANDLER_W` is open, so the tag has no width here), and the byte. -/
structure PortWord where
  opsel : BitVec 2
  kind : BitVec 8
  valid : Bool
  tag : Nat
  byte : Byte
deriving DecidableEq, Repr

/-- The two encoding spaces of the opcode table: a byte of the stream, which RECEIVE hands to the block (R61: "the
encoding of a line `RX bb` is the byte `bb` itself"), and an operation selected by `OPSEL` (R58). -/
inductive WireWord where
  | stream (b : Byte)
  | port (p : PortWord)
deriving DecidableEq, Repr

/-- Why a wire word is no instruction. -/
inductive DecodeError where
  /-- `OPSEL = 11`: "refused: the spec gives it no meaning" (R58, R60). -/
  | opselWithoutOperation
deriving DecidableEq, Repr

/-- The word fits the wires of a block with `HANDLER_W = W`, a width that it may have (R58, 00_scope.md R6). -/
def WireWord.fits (W : Nat) (w : WireWord) : Bool :=
  legalHandlerW W &&
    match w with
    | .stream _ => true
    | .port p => decide (p.tag < 2 ^ W)

/-! ### Decoding -/

/-- The real-time class of `11111kkk`, by its low three bits (41_realtime_bytes.md R71 to R78). -/
def decodeRealTime (k : BitVec 3) : Instr :=
  #v[Instr.rtClock, .rtF9, .rtStart, .rtContinue, .rtStop, .rtFD, .rtActiveSense, .rtReset][k.toFin]

/-- The channel-voice class of `nnnncccc`, or none when the nibble belongs to no kind (R50, R51). -/
def decodeStatus (nibble c : BitVec 4) : Option Instr :=
  if nibble = 0x8#4 then some (.noteOff c)
  else if nibble = 0x9#4 then some (.noteOn c)
  else if nibble = 0xA#4 then some (.polyAftertouch c)
  else if nibble = 0xB#4 then some (.controlChange c)
  else if nibble = 0xC#4 then some (.programChange c)
  else if nibble = 0xD#4 then some (.channelAftertouch c)
  else if nibble = 0xE#4 then some (.pitchBend c)
  else none

/-- The classification of R45, its tests "in this order": real time, channel-voice status, data, anything else. -/
def decodeByte (b : Byte) : Instr :=
  if hiFive b = 0b11111#5 then decodeRealTime (loThree b)
  else match decodeStatus (hiNibble b) (loNibble b) with
    | some i => i
    | none => if b < Config.statusThreshold then .data (loSeven b) else .sysUnrecognised (loThree b)

/-- The handler operand of REGISTER: a tag counts only when the valid bit is set (R58, 10_state.md R22). -/
def PortWord.handler (p : PortWord) : Option Handler := if p.valid then some ⟨p.tag⟩ else none

/-- The operation `OPSEL` selects, with the operands of the ports it uses (R58); the other ports are ignored (log 4). -/
def decodePort (p : PortWord) : Except DecodeError Instr :=
  if p.opsel = 0b00#2 then .ok .init
  else if p.opsel = 0b01#2 then .ok (.register p.kind p.handler)
  else if p.opsel = 0b10#2 then .ok (.receive p.byte)
  else .error .opselWithoutOperation

/-- Decoding of any wire word. -/
def decode : WireWord → Except DecodeError Instr
  | .stream b => .ok (decodeByte b)
  | .port p => decodePort p

/-! ### Encoding -/

/-- A port word with the given selection and every operand port at zero. -/
def portOf (opsel : BitVec 2) : PortWord := { opsel := opsel, kind := 0#8, valid := false, tag := 0, byte := 0#8 }

/-- The handler operand on the wire: a valid bit and a tag (R58); an empty handler has the bit clear, and a tag of 0. -/
def PortWord.withHandler (p : PortWord) : Option Handler → PortWord
  | none => { p with valid := false, tag := 0 }
  | some h => { p with valid := true, tag := h.tag }

/-- The word of an instruction, from the pattern its row of the opcode table gives. -/
def encode : Instr → WireWord
  | .data d => .stream (dataByte d)
  | .noteOff c => .stream (statusByte 0b1000#4 c)
  | .noteOn c => .stream (statusByte 0b1001#4 c)
  | .polyAftertouch c => .stream (statusByte 0b1010#4 c)
  | .controlChange c => .stream (statusByte 0b1011#4 c)
  | .programChange c => .stream (statusByte 0b1100#4 c)
  | .channelAftertouch c => .stream (statusByte 0b1101#4 c)
  | .pitchBend c => .stream (statusByte 0b1110#4 c)
  | .sysUnrecognised x => .stream (unrecognisedByte x)
  | .rtClock => .stream 0b11111000#8
  | .rtF9 => .stream 0b11111001#8
  | .rtStart => .stream 0b11111010#8
  | .rtContinue => .stream 0b11111011#8
  | .rtStop => .stream 0b11111100#8
  | .rtFD => .stream 0b11111101#8
  | .rtActiveSense => .stream 0b11111110#8
  | .rtReset => .stream 0b11111111#8
  | .init => .port (portOf 0b00#2)
  | .register k h => .port ({ portOf 0b01#2 with kind := k }.withHandler h)
  | .receive b => .port { portOf 0b10#2 with byte := b }

/-! ### The opcode table as data -/

/-- Which of the table's two spaces a row is of. -/
inductive Space where
  | receiveByte
  | opsel
deriving DecidableEq, Repr

/-- A row of spec/opcode_table.json: its space, mask and match (the `OPSEL` rows have two bits, zero-extended here). -/
structure Row where
  space : Space
  mask : Byte
  value : Byte
deriving DecidableEq, Repr

/-- The row matches a byte of its space. -/
def Row.hits (r : Row) (b : Byte) : Bool := b &&& r.mask == r.value

/-- The table's row of an instruction. -/
def Instr.row : Instr → Row
  | .data _ => ⟨.receiveByte, 0x80#8, 0x00#8⟩
  | .noteOff _ => ⟨.receiveByte, 0xF0#8, 0x80#8⟩
  | .noteOn _ => ⟨.receiveByte, 0xF0#8, 0x90#8⟩
  | .polyAftertouch _ => ⟨.receiveByte, 0xF0#8, 0xA0#8⟩
  | .controlChange _ => ⟨.receiveByte, 0xF0#8, 0xB0#8⟩
  | .programChange _ => ⟨.receiveByte, 0xF0#8, 0xC0#8⟩
  | .channelAftertouch _ => ⟨.receiveByte, 0xF0#8, 0xD0#8⟩
  | .pitchBend _ => ⟨.receiveByte, 0xF0#8, 0xE0#8⟩
  | .sysUnrecognised _ => ⟨.receiveByte, 0xF8#8, 0xF0#8⟩
  | .rtClock => ⟨.receiveByte, 0xFF#8, 0xF8#8⟩
  | .rtF9 => ⟨.receiveByte, 0xFF#8, 0xF9#8⟩
  | .rtStart => ⟨.receiveByte, 0xFF#8, 0xFA#8⟩
  | .rtContinue => ⟨.receiveByte, 0xFF#8, 0xFB#8⟩
  | .rtStop => ⟨.receiveByte, 0xFF#8, 0xFC#8⟩
  | .rtFD => ⟨.receiveByte, 0xFF#8, 0xFD#8⟩
  | .rtActiveSense => ⟨.receiveByte, 0xFF#8, 0xFE#8⟩
  | .rtReset => ⟨.receiveByte, 0xFF#8, 0xFF#8⟩
  | .init => ⟨.opsel, 0b11#8, 0b00#8⟩
  | .register _ _ => ⟨.opsel, 0b11#8, 0b01#8⟩
  | .receive _ => ⟨.opsel, 0b11#8, 0b10#8⟩

/-- The 17 rows of the space "RECEIVE byte", in the table's order. -/
def byteRows : List Row :=
  [Instr.row (.data 0#7), Instr.row (.noteOff 0#4), Instr.row (.noteOn 0#4), Instr.row (.polyAftertouch 0#4),
    Instr.row (.controlChange 0#4), Instr.row (.programChange 0#4), Instr.row (.channelAftertouch 0#4),
    Instr.row (.pitchBend 0#4), Instr.row (.sysUnrecognised 0#3)] ++
  [Instr.row .rtClock, Instr.row .rtF9, Instr.row .rtStart, Instr.row .rtContinue, Instr.row .rtStop,
    Instr.row .rtFD, Instr.row .rtActiveSense, Instr.row .rtReset]

/-! ### Words numbered as the opcode table numbers them -/

/-- The wire word of `nbits` table bits `w`: an 8-bit word is a byte of the stream, a 2-bit word is an `OPSEL` with
its operand ports at zero (log 4). The two spaces overlap as numbers: 0x00 is a DATA byte and 00 is INIT; the width tells
them apart. No other width has a row. -/
def tableWord (nbits w : Nat) : Option WireWord :=
  if nbits = 8 ∧ w < 256 then some (.stream (BitVec.ofNat 8 w))
  else if nbits = 2 ∧ w < 4 then some (.port (portOf (BitVec.ofNat 2 w)))
  else none

/-- The instruction the decoder reads from a table word, none where it refuses. -/
def decodeTableWord (nbits w : Nat) : Option Instr :=
  match tableWord nbits w with
  | none => none
  | some word => (decode word).toOption

end Sys2Proof
end

