-- ==== Sys2Proof/Machine/Kinds.lean ====
section
/-! DEFINITION. The 15 Event Kinds and their numbering (30_encoding.md R50, 92_eei_decisions.md D3, D5; log 11). -/

namespace Sys2Proof.Machine

/-- An Event Kind: "a closed tagged enumeration with two families" (R50). -/
inductive Kind where
  | rtClock
  | rtF9
  | rtStart
  | rtContinue
  | rtStop
  | rtFD
  | rtActiveSense
  | rtReset
  | noteOff
  | noteOn
  | polyAftertouch
  | controlChange
  | programChange
  | channelAftertouch
  | pitchBend
deriving DecidableEq, Repr

/-- The index column of R50. -/
def Kind.index : Kind → Fin Config.nKinds
  | .rtClock => 0
  | .rtF9 => 1
  | .rtStart => 2
  | .rtContinue => 3
  | .rtStop => 4
  | .rtFD => 5
  | .rtActiveSense => 6
  | .rtReset => 7
  | .noteOff => 8
  | .noteOn => 9
  | .polyAftertouch => 10
  | .controlChange => 11
  | .programChange => 12
  | .channelAftertouch => 13
  | .pitchBend => 14

/-- The kinds in the order of their indices. -/
def Kind.all : List Kind :=
  [.rtClock, .rtF9, .rtStart, .rtContinue, .rtStop, .rtFD, .rtActiveSense, .rtReset] ++
  [.noteOff, .noteOn, .polyAftertouch, .controlChange, .programChange, .channelAftertouch, .pitchBend]

/-- The kind with an index, none from 15 on (20_memory.md R31). -/
def Kind.ofIndex (n : Nat) : Option Kind := Kind.all[n]?

/-- A kind code names a kind exactly when it is less than 15 (00_scope.md R9, 40_ R65). -/
def Kind.ofCode (code : BitVec 8) : Option Kind := Kind.ofIndex code.toNat

/-- The kind code of a kind: its index, on 8 bits (R50, R58). -/
def Kind.code (k : Kind) : BitVec 8 := BitVec.ofNat 8 k.index.val

/-- The system real-time family: indices 0 to 7 (R50). -/
def Kind.isRealTime (k : Kind) : Bool := decide (k.index.val < 8)

end Sys2Proof.Machine
end

