-- ==== Sys2Proof/Machine/State.lean ====
section
/-! DEFINITION. The state of the block (10_state.md R13), the model's two ports beside it, the reasons a step can stop,
and the state after reset (R28). Plain data throughout. The block has no memory, program counter, flag or mode
(20_memory.md R30, 10_state.md R23, R24, 60_exceptions.md R113). -/

namespace Sys2Proof.Machine

/-- `HT`: exactly 15 slots, each an optional handler (10_state.md R17). -/
abbrev HandlerTable (H : Type := Handler) := Vector (Option H) Config.nKinds

/-- One handler invocation: the handler, the kind it was registered for, its three arguments (00_scope.md R9, log 8). -/
structure Event (H : Type := Handler) where
  kind : Kind
  handler : H
  channel : Byte
  data1 : Byte
  data2 : Byte
deriving DecidableEq, Repr

/-- The four results (30_encoding.md R57); `zero` is both `OK` and the count 0. -/
inductive Result where
  | zero
  | one
  | badEventHandler
  | badChannelState
deriving DecidableEq, Repr

/-- What one operation yields beside the next state: its result and its list of events (00_scope.md R10). -/
structure Output (H : Type := Handler) where
  result : Result
  events : List (Event H)
deriving DecidableEq, Repr

/-- Who requests an operation: the host, or a handler while the RECEIVE that invoked it has not returned
(70_reset_and_hazards.md R120; log 9). -/
inductive Origin where
  | host
  | handler
deriving DecidableEq, Repr

/-- A requested operation on the wire. -/
structure Request where
  origin : Origin
  word : WireWord
deriving DecidableEq, Repr

/-- The block has no fault: "No input makes the block trap or stop" (60_exceptions.md R116; log 12). -/
inductive Fault
deriving DecidableEq, Repr

/-- Why the model gives an operation no meaning. -/
inductive Refusal where
  /-- Raised by `exec` for an instruction without a meaning yet; there is none left. Safe. -/
  | notModelled (mnemonic : String)
  /-- Raised by every operation but INIT while `initd` is false (70_reset_and_hazards.md R118). Safe. -/
  | beforeInit
  /-- Raised by `step` for a request started from inside a handler (70_reset_and_hazards.md R120). Safe. -/
  | fromHandler
  /-- Raised by `step` for `OPSEL = 11` (30_encoding.md R58). Safe. -/
  | noSuchOperation
  /-- Raised by a data byte when the running status or the buffer is one that 10_state.md R20 rules out, so that the
  spec gives no next state; no run from INIT reaches such a state (log 10). Safe. -/
  | parserNotAtRest
deriving DecidableEq, Repr

/-- The cells of 10_state.md R13, and the model's ports. `H`, the type of what a slot holds, is open and so an argument
(00_scope.md R6, 92_eei_decisions.md D6); `State` alone is the state with the wire's handlers (log 6). `CNT` is `pd.length`
(R15) and `EXP` a function of `rs` (R16), so neither is a field. -/
structure State (H : Type := Handler) where
  /-- `RS`, the running status (R14). -/
  rs : Option Byte
  /-- `PD`, the pending data bytes, oldest first (R15). -/
  pd : List Byte
  /-- `HT`, the Handler Table (R17). -/
  ht : HandlerTable H
  /-- `INITD`, whether INIT has been performed (R18). -/
  initd : Bool
  /-- The model's input port: the host's requests still to be performed, next first (log 2). -/
  pending : List Request
  /-- The model's output port: results and events so far, oldest first (log 3). -/
  outputs : List (Output H)
deriving DecidableEq, Repr

/-- What a step answers. -/
abbrev Outcome (H : Type := Handler) := Host.Outcome (State H) Fault Refusal

/-- All 15 slots empty (R28). -/
def emptyTable {H : Type} : HandlerTable H := Vector.replicate Config.nKinds none

/-- The machine right after reset: reset is INIT (70_reset_and_hazards.md R117), and this is what INIT leaves
(10_state.md R28), with nothing requested and nothing answered yet (log 1, 2, 3). -/
def State.reset : State :=
  { rs := none, pd := [], ht := emptyTable, initd := true, pending := [], outputs := [] }

end Sys2Proof.Machine
end

