-- ==== Sys2Proof/Machine/Operands.lean ====
section
/-! DEFINITION. What the block reads out of bytes: the ranges of 30_encoding.md R46 to R49, the kind and channel of a
status byte (R51), the expected data-byte count (10_state.md R16), the arguments of a dispatch (R56). -/

namespace Sys2Proof.Machine

/-- 0xF8 to 0xFF (R46). -/
def isRealTimeByte (b : Byte) : Bool := decide (Config.rtBase ≤ b)

/-- 0x80 to 0xEF (R47). -/
def isStatusByte (b : Byte) : Bool := decide (Config.cvLo ≤ b) && decide (b ≤ Config.cvHi)

/-- 0x00 to 0x7F (R48). -/
def isDataByte (b : Byte) : Bool := decide (b < Config.statusThreshold)

/-- 0xF0 to 0xF7, what the three other ranges leave (R49). -/
def isUnrecognisedByte (b : Byte) : Bool := !isRealTimeByte b && !isStatusByte b && !isDataByte b

/-- The kind of a channel-voice status byte: the index is `s[7:4]` (R50, R51); none for any other byte. -/
def kindOfStatus (s : Byte) : Option Kind :=
  if isStatusByte s then Kind.ofIndex (hiNibble s).toNat else none

/-- The kind of a real-time byte: the index is `b[2:0]`, which is `b - 0xF8` (R50, R59); none for any other byte. -/
def kindOfRealTime (b : Byte) : Option Kind :=
  if isRealTimeByte b then Kind.ofIndex (b - Config.rtBase).toNat else none

/-- `Expected(s)`: 1 for the nibbles 0xC and 0xD, else 2 (10_state.md R16). Total; used on channel-voice status bytes
only. -/
def expected (s : Byte) : Nat := if hiNibble s = 0xC#4 ∨ hiNibble s = 0xD#4 then 1 else 2

/-- `EXP`: the expected count of the running status; no value when there is none (R16). -/
def State.exp {H : Type} (s : State H) : Option Nat := s.rs.map expected

/-- `channel`: the low nibble of the running status, zero-extended (R56). -/
def channelOf (s : Byte) : Byte := (loNibble s).zeroExtend 8

/-- `data1` of a completed message: `PD[0]` (R56). -/
def data1Of (pd : List Byte) : Byte := pd.getD 0 Config.placeholder

/-- `data2` of a completed message: `PD[1]` when two data bytes are expected, the placeholder when one is (R56). -/
def data2Of (s : Byte) (pd : List Byte) : Byte :=
  if expected s = 2 then pd.getD 1 Config.placeholder else Config.placeholder

end Sys2Proof.Machine
end

