-- ==== Sys2Proof/Machine/Flags.lean ====
section
/-! DEFINITION. Results. The block has no flag register (10_state.md R24): what an operation says of itself is its
result (30_encoding.md R57), returned and not stored. The one flag-like cell is whether a running status is set. -/

namespace Sys2Proof.Machine

/-- The two errors (60_exceptions.md R103, R104, R105). -/
inductive Error where
  | badEventHandler
  | badChannelState
deriving DecidableEq, Repr

/-- The result an error is reported by (R57, 60_ R102). -/
def Error.result : Error → Result
  | .badEventHandler => .badEventHandler
  | .badChannelState => .badChannelState

/-- The count of handler invocations of a RECEIVE: 1 or 0 (R57, R59 item 6). -/
def countResult (invoked : Bool) : Result := if invoked then .one else .zero

/-- The integer of a result (R57). -/
def Result.toInt : Result → Int
  | .zero => Config.codeOk
  | .one => 1
  | .badEventHandler => Config.codeBadEventHandler
  | .badChannelState => Config.codeBadChannelState

/-- The result on a wire: 8 bits two's complement (R57, 92_eei_decisions.md D10). -/
def Result.wire (r : Result) : BitVec 8 := BitVec.ofInt 8 r.toInt

/-- Whether a running status is set (10_state.md R24): the logical state is assembling, else idle (R21). -/
def State.assembling {H : Type} (s : State H) : Bool := s.rs.isSome

end Sys2Proof.Machine
end

