-- ==== Sys2Proof/Machine/Ops.lean ====
section
/-! DEFINITION. The named operations every meaning is built from: the Handler Table's slots, answering, raising an
error, DISPATCH, and the four arms of RECEIVE as files 41 to 44 give them. -/

namespace Sys2Proof.Machine

/-! ### Slots (10_state.md R17, R25) -/

/-- `HT[k]`. -/
def State.slot {H : Type} (s : State H) (k : Kind) : Option H := s.ht[k.index]

/-- `HT[k] <- h`. -/
def State.setSlot {H : Type} (s : State H) (k : Kind) (h : Option H) : State H := { s with ht := s.ht.set k.index h }

/-! ### Answering -/

/-- The operation has returned `r` and emitted `es` (00_scope.md R10): the output port gets one more entry. -/
def State.answer {H : Type} (s : State H) (r : Result) (es : List (Event H)) : State H :=
  { s with outputs := s.outputs ++ [⟨r, es⟩] }

/-- The operation completes in state `s` with result `r` and events `es`. -/
def done {H : Type} (s : State H) (r : Result) (es : List (Event H)) : Outcome H := .next (s.answer r es)

/-- `raise`: the block's exception. The operation ends at once, writes no cell of the block, emits no event and returns
the error's negative result; there is no vector, no saved register and no mode (60_exceptions.md R102, R109). There is
no return from it either: the host just issues the next operation (R111). -/
def raise {H : Type} (e : Error) (s : State H) : Outcome H := done s e.result []

/-- Operations other than INIT are refused while `initd` is false (70_reset_and_hazards.md R118). -/
def whenInit {H : Type} (s : State H) (body : Outcome H) : Outcome H :=
  if s.initd then body else .refused .beforeInit

/-! ### DISPATCH (40_host_operations_and_registry.md R66) -/

/-- `Dispatch(k, ch, d1, d2)`: whether the slot of `k` was populated, and the event emitted if so. It reads one slot and
writes nothing. -/
def dispatch {H : Type} (s : State H) (k : Kind) (args : Byte × Byte × Byte) : Bool × List (Event H) :=
  match s.slot k with
  | none => (false, [])
  | some h => (true, [{ kind := k, handler := h, channel := args.1, data1 := args.2.1, data2 := args.2.2 }])

/-- Answer a RECEIVE with what its dispatch did: 1 and the event if a handler was invoked, 0 and nothing otherwise.
`s` is the state before the dispatch, `t` the state the operation leaves. -/
def answerDispatch {H : Type} (s t : State H) (k : Kind) (args : Byte × Byte × Byte) : Outcome H :=
  done t (countResult (dispatch s k args).1) (dispatch s k args).2

/-! ### The arms of RECEIVE -/

/-- A real-time byte of kind `k` (41_realtime_bytes.md R70): dispatch at once, touch nothing. -/
def receiveRealTime {H : Type} (k : Kind) (s : State H) : Outcome H :=
  whenInit s (answerDispatch s s k Config.rtArgs)

/-- A channel-voice status byte (42_channel_voice_status_bytes.md R79): it becomes the running status and the buffer is
emptied. -/
def receiveStatus {H : Type} (b : Byte) (s : State H) : Outcome H :=
  whenInit s (done { s with rs := some b, pd := [] } .zero [])

/-- An unrecognised status byte (44_unrecognised_status_bytes.md R100): running status and buffer are cleared. -/
def receiveUnrecognised {H : Type} (s : State H) : Outcome H :=
  whenInit s (done { s with rs := none, pd := [] } .zero [])

/-- The last data byte of a message of running status `b` and kind `k`, whose data bytes are then `pd`: dispatch, then
empty the buffer and keep the running status (43_data_bytes.md R90, R91, R92). -/
def completeMessage {H : Type} (b : Byte) (k : Kind) (pd : List Byte) (s : State H) : Outcome H :=
  answerDispatch s { s with pd := [] } k (channelOf b, data1Of pd, data2Of b pd)

/-- A data byte, case by case (43_data_bytes.md R87): no running status (R88), the first of two (R89), the second of two
(R90), the only one (R91). 10_state.md R20 leaves no other case, and the model refuses any (log 10). -/
def receiveData {H : Type} (d : Byte) (s : State H) : Outcome H :=
  whenInit s <|
    match s.rs with
    | none => raise .badChannelState s
    | some b =>
      match kindOfStatus b, expected b, s.pd with
      | some _, 2, [] => done { s with pd := [d] } .zero []
      | some k, 2, [p] => completeMessage b k [p, d] s
      | some k, 1, [] => completeMessage b k [d] s
      | _, _, _ => .refused .parserNotAtRest

end Sys2Proof.Machine
end

