-- ==== Sys2Proof/Machine/ChannelVoice.lean ====
section
/-! DEFINITION. RECEIVE of a channel-voice status byte, one meaning per kind (42_channel_voice_status_bytes.md R80 to
R86): rule R79 with the high nibble fixed. -/

namespace Sys2Proof.Machine

/-- `1000cccc` (R80). -/
def execNoteOff {H : Type} (c : BitVec 4) (s : State H) : Outcome H := receiveStatus (statusByte 0x8#4 c) s

/-- `1001cccc` (R81). -/
def execNoteOn {H : Type} (c : BitVec 4) (s : State H) : Outcome H := receiveStatus (statusByte 0x9#4 c) s

/-- `1010cccc` (R82). -/
def execPolyAftertouch {H : Type} (c : BitVec 4) (s : State H) : Outcome H := receiveStatus (statusByte 0xA#4 c) s

/-- `1011cccc` (R83). No controller number is special. -/
def execControlChange {H : Type} (c : BitVec 4) (s : State H) : Outcome H := receiveStatus (statusByte 0xB#4 c) s

/-- `1100cccc` (R84). -/
def execProgramChange {H : Type} (c : BitVec 4) (s : State H) : Outcome H := receiveStatus (statusByte 0xC#4 c) s

/-- `1101cccc` (R85). -/
def execChannelAftertouch {H : Type} (c : BitVec 4) (s : State H) : Outcome H := receiveStatus (statusByte 0xD#4 c) s

/-- `1110cccc` (R86). -/
def execPitchBend {H : Type} (c : BitVec 4) (s : State H) : Outcome H := receiveStatus (statusByte 0xE#4 c) s

end Sys2Proof.Machine
end

