-- ==== Sys2Proof/Machine/DataBytes.lean ====
section
/-! DEFINITION. RECEIVE of a data byte (43_data_bytes.md R87 to R99) and of an unrecognised status byte
(44_unrecognised_status_bytes.md R100, R101). -/

namespace Sys2Proof.Machine

/-- `0ddddddd` (43_ R87). The seven completions R93 to R99 are this one meaning with the running status fixed. -/
def execData {H : Type} (d : BitVec 7) (s : State H) : Outcome H := receiveData (dataByte d) s

/-- `11110xxx` (44_ R100): all eight values behave alike. -/
def execSysUnrecognised {H : Type} (_x : BitVec 3) (s : State H) : Outcome H := receiveUnrecognised s

end Sys2Proof.Machine
end

