-- ==== Sys2Proof/Machine/HostOps.lean ====
section
/-! DEFINITION. The host's operations INIT, REGISTER and RECEIVE (40_host_operations_and_registry.md R64, R65, R67). -/

namespace Sys2Proof.Machine

/-- INIT (R64): every cell to its initial value, from any state, before or after a first INIT (log 7). -/
def execInit {H : Type} (s : State H) : Outcome H :=
  done { s with rs := none, pd := [], ht := emptyTable, initd := true } .zero []

/-- REGISTER (R65): the kind is checked first; a valid one has its slot replaced, or cleared by an empty handler. -/
def execRegister {H : Type} (kind : BitVec 8) (handler : Option H) (s : State H) : Outcome H :=
  whenInit s <|
    match Kind.ofCode kind with
    | none => raise .badEventHandler s
    | some k => done (s.setSlot k handler) .zero []

/-- Arm 3 of R67's pseudocode, as written: append, compare the length, dispatch, empty. The parser states that 10_state.md
R20 excludes are refused (log 10). -/
def receiveAppend {H : Type} (d : Byte) (s : State H) : Outcome H :=
  match s.rs with
  | none => raise .badChannelState s
  | some b =>
    match kindOfStatus b with
    | none => .refused .parserNotAtRest
    | some k =>
      if expected b ≤ s.pd.length then .refused .parserNotAtRest
      else if (s.pd ++ [d]).length = expected b then completeMessage b k (s.pd ++ [d]) s
      else done { s with pd := s.pd ++ [d] } .zero []

/-- RECEIVE (R67): the whole pseudocode, its four range tests in the spec's order. -/
def execReceive {H : Type} (b : Byte) (s : State H) : Outcome H :=
  whenInit s <|
    match kindOfRealTime b with
    | some k => answerDispatch s s k Config.rtArgs
    | none =>
      if isStatusByte b then done { s with rs := some b, pd := [] } .zero []
      else if isDataByte b then receiveAppend b s
      else done { s with rs := none, pd := [] } .zero []

end Sys2Proof.Machine
end

