-- ==== Sys2Proof/Machine/RealTime.lean ====
section
/-! DEFINITION. RECEIVE of a real-time byte, one meaning per byte value (41_realtime_bytes.md R71 to R78): rule R70 with
the byte fixed. They differ in the slot they read and nothing else. -/

namespace Sys2Proof.Machine

/-- 0xF8, kind index 0 (R71). -/
def execRtClock {H : Type} (s : State H) : Outcome H := receiveRealTime .rtClock s

/-- 0xF9, kind index 1 (R72). -/
def execRtF9 {H : Type} (s : State H) : Outcome H := receiveRealTime .rtF9 s

/-- 0xFA, kind index 2 (R73). -/
def execRtStart {H : Type} (s : State H) : Outcome H := receiveRealTime .rtStart s

/-- 0xFB, kind index 3 (R74). -/
def execRtContinue {H : Type} (s : State H) : Outcome H := receiveRealTime .rtContinue s

/-- 0xFC, kind index 4 (R75). -/
def execRtStop {H : Type} (s : State H) : Outcome H := receiveRealTime .rtStop s

/-- 0xFD, kind index 5 (R76). -/
def execRtFD {H : Type} (s : State H) : Outcome H := receiveRealTime .rtFD s

/-- 0xFE, kind index 6 (R77). The block keeps no active-sense time-out. -/
def execRtActiveSense {H : Type} (s : State H) : Outcome H := receiveRealTime .rtActiveSense s

/-- 0xFF, kind index 7 (R78). It is dispatched, not obeyed: only INIT resets. -/
def execRtReset {H : Type} (s : State H) : Outcome H := receiveRealTime .rtReset s

end Sys2Proof.Machine
end

