-- ==== Sys2Proof/Machine/Dispatch.lean ====
section
/-! DEFINITION. One arm per instruction: a direct call of its meaning. -/

namespace Sys2Proof.Machine

def exec (i : Instr) (s : State) : Host.Outcome State Fault Refusal :=
  match i with
  | .data d => Sys2Proof.Machine.execData d s
  | .noteOff c => Sys2Proof.Machine.execNoteOff c s
  | .noteOn c => Sys2Proof.Machine.execNoteOn c s
  | .polyAftertouch c => Sys2Proof.Machine.execPolyAftertouch c s
  | .controlChange c => Sys2Proof.Machine.execControlChange c s
  | .programChange c => Sys2Proof.Machine.execProgramChange c s
  | .channelAftertouch c => Sys2Proof.Machine.execChannelAftertouch c s
  | .pitchBend c => Sys2Proof.Machine.execPitchBend c s
  | .sysUnrecognised x => Sys2Proof.Machine.execSysUnrecognised x s
  | .rtClock => Sys2Proof.Machine.execRtClock s
  | .rtF9 => Sys2Proof.Machine.execRtF9 s
  | .rtStart => Sys2Proof.Machine.execRtStart s
  | .rtContinue => Sys2Proof.Machine.execRtContinue s
  | .rtStop => Sys2Proof.Machine.execRtStop s
  | .rtFD => Sys2Proof.Machine.execRtFD s
  | .rtActiveSense => Sys2Proof.Machine.execRtActiveSense s
  | .rtReset => Sys2Proof.Machine.execRtReset s
  | .init => Sys2Proof.Machine.execInit s
  | .register kind handler => Sys2Proof.Machine.execRegister kind handler s
  | .receive b => Sys2Proof.Machine.execReceive b s

end Sys2Proof.Machine
end

