-- ==== Sys2Proof/Machine/Fetch.lean ====
section
/-! DEFINITION. Taking the next request from the input port. The block fetches nothing (10_state.md R23): the host hands it
one operation at a time, in order (20_memory.md R32, R40). -/

namespace Sys2Proof.Machine

/-- What the next request amounts to. -/
inductive Fetched (H : Type := Handler) where
  /-- Nothing is requested. -/
  | idle
  /-- The request has no meaning. -/
  | refused (r : Refusal)
  /-- The instruction requested, and the state with the request taken. -/
  | run (i : Instr) (s : State H)
deriving DecidableEq, Repr

/-- The next request: refused when it comes from inside a handler (70_reset_and_hazards.md R120) or selects no operation
(30_encoding.md R58), else decoded. -/
def fetch {H : Type} (s : State H) : Fetched H :=
  match s.pending with
  | [] => .idle
  | r :: rest =>
    match r.origin with
    | .handler => .refused .fromHandler
    | .host =>
      match decode r.word with
      | .error .opselWithoutOperation => .refused .noSuchOperation
      | .ok i => .run i { s with pending := rest }

/-- The host requests the operation `word` next, before anything already requested. -/
def State.request {H : Type} (s : State H) (word : WireWord) : State H := { s with pending := ⟨.host, word⟩ :: s.pending }

end Sys2Proof.Machine
end

