-- ==== Sys2Proof/Machine/Step.lean ====
section
/-! DEFINITION. One operation is one atomic step (70_reset_and_hazards.md R127, R129, 92_eei_decisions.md D2). -/

namespace Sys2Proof.Machine

/-- Perform the next requested operation. With nothing requested the block does nothing (log 2). -/
def step (s : State) : Host.Outcome State Fault Refusal :=
  match fetch s with
  | .idle => .next s
  | .refused r => .refused r
  | .run i s' => exec i s'

/-- The instruction of table word `w` as the host's next request; a word of no table space requests nothing (log 4). -/
def State.withFetchWord (s : State) (nbits w : Nat) : State :=
  match tableWord nbits w with
  | none => s
  | some word => s.request word

end Sys2Proof.Machine
end

