-- ==== Sys2Proof/Machine/OpenHandlers.lean ====
section
/-! DEFINITION. The block over any type of handler values. `H` is "opaque, any type with decidable equality" and an
argument of the model (00_scope.md R6, R9, 92_eei_decisions.md D6): here a tag on the wire stands for the handler that
`value` gives it. `exec` and `step` are the case in which a tag stands for itself (log 6). -/

namespace Sys2Proof.Machine

/-- `exec` over `H`: the same meanings, REGISTER's operand read through `value`. -/
def execOver {H : Type} (value : Handler → H) (i : Instr) (s : State H) : Outcome H :=
  match i with
  | .data d => execData d s
  | .noteOff c => execNoteOff c s
  | .noteOn c => execNoteOn c s
  | .polyAftertouch c => execPolyAftertouch c s
  | .controlChange c => execControlChange c s
  | .programChange c => execProgramChange c s
  | .channelAftertouch c => execChannelAftertouch c s
  | .pitchBend c => execPitchBend c s
  | .sysUnrecognised x => execSysUnrecognised x s
  | .rtClock => execRtClock s
  | .rtF9 => execRtF9 s
  | .rtStart => execRtStart s
  | .rtContinue => execRtContinue s
  | .rtStop => execRtStop s
  | .rtFD => execRtFD s
  | .rtActiveSense => execRtActiveSense s
  | .rtReset => execRtReset s
  | .init => execInit s
  | .register kind handler => execRegister kind (handler.map value) s
  | .receive b => execReceive b s

/-- `step` over `H`. -/
def stepOver {H : Type} (value : Handler → H) (s : State H) : Outcome H :=
  match fetch s with
  | .idle => .next s
  | .refused r => .refused r
  | .run i s' => execOver value i s'

end Sys2Proof.Machine
end

