-- ==== Sys2Proof/Machine/PseudoOps.lean ====
section
/-! DEFINITION. The message-level pseudo-operations of 30_encoding.md R62: each expands to received bytes and nothing
else. -/

namespace Sys2Proof.Machine

/-- The left column of R62. -/
inductive PseudoOp where
  | noteOff (ch : BitVec 4) (d1 d2 : BitVec 7)
  | noteOn (ch : BitVec 4) (d1 d2 : BitVec 7)
  | polyAftertouch (ch : BitVec 4) (d1 d2 : BitVec 7)
  | controlChange (ch : BitVec 4) (d1 d2 : BitVec 7)
  | programChange (ch : BitVec 4) (d1 : BitVec 7)
  | channelAftertouch (ch : BitVec 4) (d1 : BitVec 7)
  | pitchBend (ch : BitVec 4) (d1 d2 : BitVec 7)
  | runTwo (d1 d2 : BitVec 7)
  | runOne (d1 : BitVec 7)
  | realTime (k : BitVec 3)
deriving DecidableEq, Repr

/-- The right column of R62. -/
def PseudoOp.expand : PseudoOp → List Byte
  | .noteOff ch d1 d2 => [statusByte 0x8#4 ch, dataByte d1, dataByte d2]
  | .noteOn ch d1 d2 => [statusByte 0x9#4 ch, dataByte d1, dataByte d2]
  | .polyAftertouch ch d1 d2 => [statusByte 0xA#4 ch, dataByte d1, dataByte d2]
  | .controlChange ch d1 d2 => [statusByte 0xB#4 ch, dataByte d1, dataByte d2]
  | .programChange ch d1 => [statusByte 0xC#4 ch, dataByte d1]
  | .channelAftertouch ch d1 => [statusByte 0xD#4 ch, dataByte d1]
  | .pitchBend ch d1 d2 => [statusByte 0xE#4 ch, dataByte d1, dataByte d2]
  | .runTwo d1 d2 => [dataByte d1, dataByte d2]
  | .runOne d1 => [dataByte d1]
  | .realTime k => [realTimeByte k]

end Sys2Proof.Machine
end

