-- ==== Sys2Proof/Machine/Regs.lean ====
section
/-! DEFINITION. The register-level form of the state (10_state.md R22, 92_eei_decisions.md D15): fixed-width cells, some of
them meaningful only when others say so. The abstract types of R13 are normative; this is a view of them. -/

namespace Sys2Proof.Machine

/-- The cells of R22. `HANDLER_W` is open and so an argument, `W` (00_scope.md R6; log 6). -/
structure Regs (W : Nat) where
  /-- `RSV`: RS is set. -/
  rsv : Bool
  /-- `RSB`: the status byte, meaningful when `rsv`. -/
  rsb : Byte
  /-- `CNT`: 0 to 2. -/
  cnt : BitVec 2
  /-- `PD0`, meaningful when `CNT >= 1`. -/
  pd0 : Byte
  /-- `PD1`, meaningful when `CNT == 2`. -/
  pd1 : Byte
  /-- `HV[k]`: the slot is populated. -/
  hv : Vector Bool Config.nKinds
  /-- `HTAG[k]`, `HANDLER_W` bits, meaningful when `HV[k]`. -/
  htag : Vector (BitVec W) Config.nKinds
deriving DecidableEq, Repr

/-- `RS` read from `RSV` and `RSB`. -/
def Regs.rs {W : Nat} (r : Regs W) : Option Byte := if r.rsv then some r.rsb else none

/-- `PD` read from `CNT`, `PD0` and `PD1`; `CNT` is 0 to 2 (R22); that 3 reads as 2 is the model's choice (log 14). -/
def Regs.pd {W : Nat} (r : Regs W) : List Byte :=
  if r.cnt = 0#2 then [] else if r.cnt = 1#2 then [r.pd0] else [r.pd0, r.pd1]

/-- `HT` read from `HV` and `HTAG`. -/
def Regs.ht {W : Nat} (r : Regs W) : HandlerTable :=
  Vector.ofFn fun k => if r.hv[k] then some ⟨r.htag[k].toNat⟩ else none

/-- The state whose cells the registers hold, with `s`'s flag and ports. -/
def Regs.load {W : Nat} (r : Regs W) (s : State) : State := { s with rs := r.rs, pd := r.pd, ht := r.ht }

/-- Every registered handler's tag fits `HTAG`'s `W` bits. -/
def State.handlersFit (W : Nat) (s : State) : Bool :=
  decide (∀ k : Fin Config.nKinds, (s.ht[k]).all (Handler.fits W) = true)

/-- The registers that hold a state's cells; the cells that are not meaningful are left as `junk` has them. None for a state
R22 gives no register form: more than two bytes buffered, or a tag wider than `W` bits. No state at rest after INIT buffers
two bytes (10_state.md R20). -/
def State.toRegs {W : Nat} (s : State) (junk : Regs W) : Option (Regs W) :=
  if s.pd.length ≤ 2 ∧ s.handlersFit W = true then
    some {
      rsv := s.rs.isSome
      rsb := s.rs.getD junk.rsb
      cnt := BitVec.ofNat 2 s.pd.length
      pd0 := s.pd.getD 0 junk.pd0
      pd1 := s.pd.getD 1 junk.pd1
      hv := Vector.ofFn fun k => s.ht[k].isSome
      htag := Vector.ofFn fun k => (s.ht[k].map fun h => BitVec.ofNat W h.tag).getD junk.htag[k] }
  else none

/-- The two register files agree on every cell that is meaningful (R22). -/
def Regs.SameMeaning {W : Nat} (r r' : Regs W) : Prop :=
  r.rsv = r'.rsv ∧ (r.rsv = true → r.rsb = r'.rsb) ∧ r.cnt = r'.cnt ∧
  (1 ≤ r.cnt.toNat → r.pd0 = r'.pd0) ∧ (2 ≤ r.cnt.toNat → r.pd1 = r'.pd1) ∧
  r.hv = r'.hv ∧ ∀ k : Fin Config.nKinds, r.hv[k] = true → r.htag[k] = r'.htag[k]

end Sys2Proof.Machine
end

