-- ==== Sys2Proof/Machine/Streams.lean ====
section
/-! DEFINITION. Several streams (60_exceptions.md R114, 70_reset_and_hazards.md R124): one whole block per stream, with its
own Parser State and its own Handler Table, no state in common and no signal between them (log 13). -/

namespace Sys2Proof.Machine

/-- A system of blocks, one per stream. -/
abbrev System := List State

/-- The block of stream `n` performs its next operation; no other block sees it. Two points are the model's choices and not
the spec's (log 13). Where that block refuses, the whole system step is refused and no block has a next state: the spec
defines a refused run for one block (60_ R116, 70_ R120) and says nothing of the other blocks then. And a number that names
no block changes nothing. -/
def System.stepAt (sys : System) (n : Nat) : Host.Outcome System Fault Refusal :=
  match sys[n]? with
  | none => .next sys
  | some s =>
    match step s with
    | .next t => .next (sys.set n t)
    | .fault r => .fault r
    | .refused r => .refused r

end Sys2Proof.Machine
end

