-- ==== Sys2Proof/Safety.lean ====
section
/-! DEFINITION. What claims are stated in: the invariants of 10_state.md R20, the runs the spec licenses, the classes of
operation of its whole-machine tables (R29, 60_exceptions.md R105), and the relations between states that claims compare. -/

namespace Sys2Proof.Machine

/-! ### Invariants at rest (10_state.md R20) -/

/-- I1: a running status is a channel-voice status byte. -/
def I1 (s : State) : Prop := ∀ b ∈ s.rs, 0x80#8 ≤ b ∧ b ≤ 0xEF#8

/-- I2: without a running status nothing is buffered. -/
def I2 (s : State) : Prop := s.rs = none → s.pd = []

/-- I3: fewer bytes are buffered than the message has. -/
def I3 (s : State) : Prop := ∀ b ∈ s.rs, s.pd.length + 1 ≤ expected b

/-- I4: only data bytes are buffered. -/
def I4 (s : State) : Prop := ∀ d ∈ s.pd, d < 0x80#8

/-- The invariants, which "hold at rest after INIT" (R20). -/
def AtRest (s : State) : Prop := s.initd = true → I1 s ∧ I2 s ∧ I3 s ∧ I4 s

/-- An operation's result and events belong together: "non-negative return is the number of callback invocations", 0 or 1,
and an error comes with no event (00_scope.md R10, 60_exceptions.md R102). -/
def Output.Consistent (o : Output) : Prop :=
  match o.result with
  | .zero => o.events = []
  | .one => o.events.length = 1
  | .badEventHandler => o.events = []
  | .badChannelState => o.events = []

/-! ### Runs -/

/-- A list of operations, each performed to completion, in order (70_reset_and_hazards.md R128). -/
def execAll : List Instr → State → Outcome
  | [], s => .next s
  | i :: is, s =>
    match exec i s with
    | .next t => execAll is t
    | .fault r => .fault r
    | .refused r => .refused r

/-- `n` steps of the machine behind the host's interface, stopping at the first refusal. -/
def runSteps (n : Nat) (s : State) : Outcome := core.run n s

/-- A stream of bytes, each received in order. -/
def receiveAll (bs : List Byte) (s : State) : Outcome := execAll (bs.map decodeByte) s

/-- The requests the spec gives a meaning to, `up` saying whether INIT has been performed: from the host, selecting an
operation, and INIT first (60_exceptions.md R116). -/
def Licensed : Bool → List Request → Prop
  | _, [] => True
  | up, r :: rest =>
    r.origin = .host ∧ ∃ i, decode r.word = .ok i ∧ (up = true ∨ i = .init) ∧ Licensed true rest

/-! ### Classes of operation (the rows of 10_state.md R29) -/

/-- A row of the write matrix, before the parser state is looked at. -/
inductive OpClass where
  | init
  | register (kind : BitVec 8) (handler : Option Handler)
  | realTime
  | status (b : Byte)
  | data (d : Byte)
  | unrecognised
deriving DecidableEq, Repr

/-- The class of a received byte, by its range (R39). -/
def byteClass (b : Byte) : OpClass :=
  if isRealTimeByte b then .realTime
  else if isStatusByte b then .status b
  else if isDataByte b then .data b
  else .unrecognised

/-- The class of an instruction. -/
def opClass : Instr → OpClass
  | .data d => .data (dataByte d)
  | .noteOff c => .status (statusByte 0x8#4 c)
  | .noteOn c => .status (statusByte 0x9#4 c)
  | .polyAftertouch c => .status (statusByte 0xA#4 c)
  | .controlChange c => .status (statusByte 0xB#4 c)
  | .programChange c => .status (statusByte 0xC#4 c)
  | .channelAftertouch c => .status (statusByte 0xD#4 c)
  | .pitchBend c => .status (statusByte 0xE#4 c)
  | .sysUnrecognised _ => .unrecognised
  | .rtClock => .realTime
  | .rtF9 => .realTime
  | .rtStart => .realTime
  | .rtContinue => .realTime
  | .rtStop => .realTime
  | .rtFD => .realTime
  | .rtActiveSense => .realTime
  | .rtReset => .realTime
  | .init => .init
  | .register k h => .register k h
  | .receive b => byteClass b

/-- The results an operation of a class can have (60_exceptions.md R105). -/
def OpClass.results : OpClass → List Result
  | .init => [.zero]
  | .register _ _ => [.zero, .badEventHandler]
  | .realTime => [.zero, .one]
  | .status _ => [.zero]
  | .data _ => [.zero, .one, .badChannelState]
  | .unrecognised => [.zero]

/-- What the output port shows of a dispatch of kind `k`: 1 and the event when the slot is populated, 0 and nothing when it
is empty (40_ R66, R67). -/
def dispatched {H : Type} (s : State H) (k : Kind) (ch d1 d2 : Byte) : Output H :=
  match s.slot k with
  | none => ⟨.zero, []⟩
  | some h => ⟨.one, [⟨k, h, ch, d1, d2⟩]⟩

/-- The channel-voice events of a transcript, in order. -/
def voiceEvents (os : List Output) : List Event :=
  (os.flatMap Output.events).filter fun e => !e.kind.isRealTime

/-! ### Relations between states -/

/-- The two states have the same block: they can differ only in the model's ports. -/
def SameBlock (s t : State) : Prop := s.rs = t.rs ∧ s.pd = t.pd ∧ s.ht = t.ht ∧ s.initd = t.initd

/-- The two outcomes are the same but for the ports the states started with: same block and the same new output, or the
same refusal. -/
def SameAnswer (s t : State) : Outcome → Outcome → Prop
  | .next s', .next t' => SameBlock s' t' ∧ ∃ o, s'.outputs = s.outputs ++ [o] ∧ t'.outputs = t.outputs ++ [o]
  | .refused r, .refused r' => r = r'
  | _, _ => False

/-- The two outcomes have the same parser and flag, or are the same refusal. -/
def SameParser : Outcome → Outcome → Prop
  | .next s, .next t => s.rs = t.rs ∧ s.pd = t.pd ∧ s.initd = t.initd
  | .refused r, .refused r' => r = r'
  | _, _ => False

/-! ### Replacing handlers (92_eei_decisions.md D6: the block never looks inside a handler) -/

/-- The request with its handler renamed; `f` acts on the tag whether or not it is meaningful. -/
def Request.rename (f : Handler → Handler) (r : Request) : Request :=
  match r.word with
  | .stream _ => r
  | .port p => { r with word := .port { p with tag := (f ⟨p.tag⟩).tag } }

/-- The event with its handler replaced. -/
def Event.mapHandler {H H' : Type} (f : H → H') (e : Event H) : Event H' := { e with handler := f e.handler }

/-- The output with its handlers replaced. -/
def Output.mapHandlers {H H' : Type} (f : H → H') (o : Output H) : Output H' :=
  { o with events := o.events.map (Event.mapHandler f) }

/-- The block with every handler in it replaced, in the slots and in the transcript; the wire is left alone. -/
def State.mapHandlers {H H' : Type} (f : H → H') (s : State H) : State H' :=
  { s with ht := s.ht.map (Option.map f), outputs := s.outputs.map (Output.mapHandlers f) }

/-- The outcome with every handler in its state replaced. -/
def mapOutcome {H H' : Type} (f : H → H') : Outcome H → Outcome H'
  | .next s => .next (s.mapHandlers f)
  | .fault r => .fault r
  | .refused r => .refused r

/-- The state with every handler renamed, on the wire of the pending requests as well. -/
def State.rename (f : Handler → Handler) (s : State) : State :=
  { s.mapHandlers f with pending := s.pending.map (Request.rename f) }

/-- The outcome with every handler in it renamed. -/
def renameOutcome (f : Handler → Handler) : Outcome → Outcome
  | .next s => .next (s.rename f)
  | .fault r => .fault r
  | .refused r => .refused r

end Sys2Proof.Machine
end

