-- ==== Sys2Proof/Certificates/Slice0/Obligations.lean ====
section
/-! DEFINITION. The statements for the provers. Each formalises a numbered rule of spec/, or says in its docstring which
sections it rests on and what in it is a choice. "Next" means `Host.Outcome.next`. -/

open Sys2Proof Sys2Proof.Machine

/-! ### Reset and INIT -/

/-- What INIT leaves, cell by cell, from any state, before or after a first INIT (10_state.md R28): the abstract cells,
the logical state idle, and the register-level cells R28 lists. -/
def Obligations.InitLeavesEmptyBlock : Prop :=
  ∀ s : State, ∃ t, exec .init s = .next t ∧
    t.rs = none ∧ t.pd = [] ∧ t.exp = none ∧ (∀ k, t.slot k = none) ∧ t.initd = true ∧ t.assembling = false ∧
    ∀ (W : Nat) (junk : Regs W), ∃ r, t.toRegs junk = some r ∧ r.rsv = false ∧ r.cnt = 0#2 ∧
      ∀ k : Fin Config.nKinds, r.hv[k] = false

/-- INIT completes from every state with result 0 and no event, and leaves the state after reset, whatever came before:
a repeated INIT is a fresh reset by the spec's decision D13 (log 1, 7). The ports are kept but for the new output. -/
def Obligations.InitCompletesAndResets : Prop :=
  ∀ s : State, exec .init s =
    .next { State.reset with pending := s.pending, outputs := s.outputs ++ [⟨.zero, []⟩] }

/-- The invariants of 10_state.md R20 hold right after reset, which is right after INIT (log 1). -/
def Obligations.InvariantsHoldAtReset : Prop :=
  State.reset.initd = true ∧ AtRest State.reset

/-! ### Steps and requests -/

/-- A step performs the host's next request: when its word decodes to `i`, the step is `exec i` on the state with the
request taken. The input port is the model's (log 2). -/
def Obligations.StepRunsDecodedRequest : Prop :=
  ∀ (s : State) (w : WireWord) (rest : List Request) (i : Instr),
    s.pending = ⟨.host, w⟩ :: rest → decode w = .ok i → step s = exec i { s with pending := rest }

/-- A table word of an instruction, placed as the host's next request, makes the very next step that instruction's `exec`
on the state as it was (log 2, 4). -/
def Obligations.PlacedTableWordRunsNext : Prop :=
  ∀ (s : State) (nbits w : Nat) (i : Instr), decodeTableWord nbits w = some i →
    step (s.withFetchWord nbits w) = exec i s

/-- With nothing requested a step changes nothing: the model's choice (log 2). -/
def Obligations.NothingRequestedChangesNothing : Prop :=
  ∀ s : State, s.pending = [] → step s = .next s

/-- An operation started from inside a handler is refused, whichever of INIT, REGISTER and RECEIVE it is and whatever the
state (70_reset_and_hazards.md R120, by the spec's decision D16; the origin mark is the model's, log 9). -/
def Obligations.HandlerRequestsAreRefused : Prop :=
  ∀ (s : State) (w : WireWord) (rest : List Request),
    s.pending = ⟨.handler, w⟩ :: rest → step s = .refused .fromHandler

/-- `OPSEL = 11` from the host is refused, whatever the operand ports hold (30_encoding.md R58, R60; OPSEL is the spec's own
decision D1), and no other port word is refused by the decoder. -/
def Obligations.OpselElevenIsRefused : Prop :=
  (∀ (s : State) (p : PortWord) (rest : List Request),
    s.pending = ⟨.host, .port p⟩ :: rest → p.opsel = 0b11#2 → step s = .refused .noSuchOperation) ∧
  ∀ w : WireWord, decode w = .error .opselWithoutOperation ↔ ∃ p, w = .port p ∧ p.opsel = 0b11#2

/-- As many steps as there are requests run the requested operations one after another, in the order the host issued
them; operations do not see the requests behind them (20_memory.md R37, R40, 70_reset_and_hazards.md R128; log 2). -/
def Obligations.RunPerformsRequestsInOrder : Prop :=
  ∀ (s : State) (ws : List WireWord) (is : List Instr) (rest : List Request),
    s.pending = ws.map (fun w => ⟨.host, w⟩) ++ rest → ws.map decode = is.map .ok →
    runSteps ws.length s = execAll is { s with pending := rest }

/-! ### Encoding -/

/-- Decoding the encoding of any instruction gives it back, every operand at every value; an instruction is well-formed for
`W`-bit handler tags exactly when its encoding fits such wires; and `HANDLER_W` is at least 1 (00_scope.md R6). -/
def Obligations.DecodeOfEncode : Prop :=
  ∀ i : Instr, decode (encode i) = .ok i ∧ (∀ W : Nat, i.wellFormed W = (encode i).fits W) ∧ i.wellFormed 0 = false

/-- Every one of the 256 bytes is the encoding of what it decodes to: no bit of a byte is dropped. -/
def Obligations.EncodeOfDecodedByte : Prop :=
  ∀ b : Byte, encode (decodeByte b) = .stream b

/-- Every byte matches exactly one byte-class row of the opcode table, the row of the instruction it decodes to
(90_conflicts.md, check of the files; 30_encoding.md R45). -/
def Obligations.EveryByteMatchesOneRow : Prop :=
  ∀ b : Byte, byteRows.filter (fun r => r.hits b) = [(decodeByte b).row]

/-- A byte is a status byte or a data byte by its top bit, and `b >= 0x80` is the same test as `b[7] == 1`; a data byte is
`0ddddddd` with its seven payload bits (30_encoding.md R44). -/
def Obligations.TopBitTellsStatusFromData : Prop :=
  ∀ b : Byte, (0x80#8 ≤ b ↔ b.msb = true) ∧
    (b.msb = false → b = 0#1 ++ b.extractLsb' 0 7 ∧ decodeByte b = .data (b.extractLsb' 0 7)) ∧
    (b.msb = true → (decodeByte b).row ≠ (Instr.data 0#7).row)

/-- The four ranges, with their boundary values: 0x00 to 0x7F data, 0x80 to 0xEF channel-voice status, 0xF0 to 0xF7
unrecognised, 0xF8 to 0xFF real time (20_memory.md R39). The class of a byte and the class of the instruction it decodes
to are the same. The inner boundaries 0xEF and 0xF7 are derived by the spec (30_encoding.md R46 to R49). -/
def Obligations.FourRangesClassifyEveryByte : Prop :=
  ∀ b : Byte,
    (b.toNat ≤ 0x7F → byteClass b = .data b) ∧
    (0x80 ≤ b.toNat → b.toNat ≤ 0xEF → byteClass b = .status b) ∧
    (0xF0 ≤ b.toNat → b.toNat ≤ 0xF7 → byteClass b = .unrecognised) ∧
    (0xF8 ≤ b.toNat → byteClass b = .realTime) ∧
    opClass (decodeByte b) = byteClass b

/-- A few words written out from the spec's patterns decode to the instructions they stand for. -/
def Obligations.SpecWordsDecode : Prop :=
  decodeTableWord 8 0b01000000 = some (.data 0x40#7) ∧
  decodeTableWord 8 0b10010000 = some (.noteOn 0#4) ∧
  decodeTableWord 8 0b11000101 = some (.programChange 5#4) ∧
  decodeTableWord 8 0b11101111 = some (.pitchBend 15#4) ∧
  decodeTableWord 8 0b11110111 = some (.sysUnrecognised 7#3) ∧
  decodeTableWord 8 0b11111000 = some .rtClock ∧
  decodeTableWord 8 0b11111111 = some .rtReset ∧
  decodeTableWord 2 0b00 = some .init ∧
  decode (.port ⟨0b01#2, 9#8, true, 3, 0#8⟩) = .ok (.register 9#8 (some ⟨3⟩)) ∧
  decode (.port ⟨0b01#2, 9#8, false, 3, 0#8⟩) = .ok (.register 9#8 none) ∧
  decode (.port ⟨0b10#2, 0#8, false, 0, 0x90#8⟩) = .ok (.receive 0x90#8)

/-- The kind codes: 15 kinds, each named by its own code and by no other, a code of 15 or more naming none; the kind of a
real-time byte and of a status byte is the one with the index in `b[2:0]` and `s[7:4]` (30_encoding.md R50, R51). The
numbering is the spec's decision D3 (log 11). -/
def Obligations.KindNumbering : Prop :=
  (∀ k : Kind, Kind.ofCode k.code = some k) ∧
  (∀ c : BitVec 8, Kind.ofCode c = none ↔ 15 ≤ c.toNat) ∧
  (∀ (c : BitVec 8) (k : Kind), Kind.ofCode c = some k → k.code = c) ∧
  (∀ b : Byte, 0xF8 ≤ b.toNat → ∃ k, kindOfRealTime b = some k ∧ k.index.val = b.toNat % 8) ∧
  (∀ b : Byte, 0x80 ≤ b.toNat → b.toNat ≤ 0xEF → ∃ k, kindOfStatus b = some k ∧ k.index.val = b.toNat / 16)

/-- The four results as integers and as 8-bit two's complement (30_encoding.md R57; the width is the spec's decision D10). -/
def Obligations.ResultCodes : Prop :=
  Result.zero.toInt = 0 ∧ Result.one.toInt = 1 ∧ Result.badEventHandler.toInt = -1 ∧
  Result.badChannelState.toInt = -2 ∧
  Result.zero.wire = 0x00#8 ∧ Result.one.wire = 0x01#8 ∧ Result.badEventHandler.wire = 0xFF#8 ∧
  Result.badChannelState.wire = 0xFE#8

/-! ### Real-time bytes -/

/-- Each of the eight real-time bytes completes on every initialised block, in every parser state: it dispatches its own
kind at once, answers 1 with one event when the slot is populated and 0 with none when it is empty, and changes no cell
(41_realtime_bytes.md R70 to R78). The three zero arguments are the spec's decision D8 (log 7). -/
def Obligations.RealTimeBytesDispatchAndChangeNothing : Prop :=
  ∀ p ∈ [(Instr.rtClock, Kind.rtClock), (Instr.rtF9, Kind.rtF9), (Instr.rtStart, Kind.rtStart),
      (Instr.rtContinue, Kind.rtContinue), (Instr.rtStop, Kind.rtStop), (Instr.rtFD, Kind.rtFD),
      (Instr.rtActiveSense, Kind.rtActiveSense), (Instr.rtReset, Kind.rtReset)],
    ∀ s : State, s.initd = true →
      (s.slot p.2 = none → exec p.1 s = .next { s with outputs := s.outputs ++ [⟨.zero, []⟩] }) ∧
      ∀ h, s.slot p.2 = some h →
        exec p.1 s = .next { s with outputs := s.outputs ++ [⟨.one, [⟨p.2, h, 0#8, 0#8, 0#8⟩]⟩] }

/-- Real-time bytes are transparent: take any stream and take the real-time bytes out of it; the parser state and the
Handler Table at the end are the same, and so are the channel-voice events, in the same order. A status byte of either
other kind does end the message: it empties the buffer and emits nothing (30_encoding.md R54). That real-time bytes are
transparent at all is the spec's decision D23, which its source leaves to be validated (log 7). -/
def Obligations.RealTimeBytesAreTransparent : Prop :=
  (∀ (bs : List Byte) (s : State), s.initd = true → AtRest s →
    ∃ t u, receiveAll bs s = .next t ∧ receiveAll (bs.filter fun b => !isRealTimeByte b) s = .next u ∧
      t.rs = u.rs ∧ t.pd = u.pd ∧ t.ht = u.ht ∧ voiceEvents t.outputs = voiceEvents u.outputs) ∧
  ∀ (b : Byte) (s : State), s.initd = true → isStatusByte b = true ∨ isUnrecognisedByte b = true →
    ∃ t, exec (decodeByte b) s = .next t ∧ t.pd = [] ∧ t.outputs = s.outputs ++ [⟨.zero, []⟩]

/-! ### Channel-voice status bytes -/

/-- A byte in 0x80 to 0xEF opens a message in every parser state: it becomes the running status, the buffer is emptied, the
expected count is 1 for program-change and channel-aftertouch kinds and 2 for all other channel-voice kinds, nothing is
dispatched and the result is 0 (42_channel_voice_status_bytes.md R79). -/
def Obligations.StatusByteOpensMessage : Prop :=
  ∀ (b : Byte) (s : State), s.initd = true → 0x80 ≤ b.toNat → b.toNat ≤ 0xEF →
    exec (decodeByte b) s = .next { s with rs := some b, pd := [], outputs := s.outputs ++ [⟨.zero, []⟩] } ∧
    ∃ k, kindOfStatus b = some k ∧
      expected b = if k = .programChange ∨ k = .channelAftertouch then 1 else 2

/-- The same, kind by kind (42_channel_voice_status_bytes.md R80 to R86): which high nibble is which kind, 0x9 and 0xC from
the source and the others from general knowledge (93_implementation_defined.md G3; log 7), and its expected count. -/
def Obligations.EachStatusKindOpensItsMessage : Prop :=
  ∀ p ∈ [(Instr.noteOff, 0x8#4, Kind.noteOff, 2), (Instr.noteOn, 0x9#4, Kind.noteOn, 2),
      (Instr.polyAftertouch, 0xA#4, Kind.polyAftertouch, 2), (Instr.controlChange, 0xB#4, Kind.controlChange, 2),
      (Instr.programChange, 0xC#4, Kind.programChange, 1),
      (Instr.channelAftertouch, 0xD#4, Kind.channelAftertouch, 1), (Instr.pitchBend, 0xE#4, Kind.pitchBend, 2)],
    ∀ (c : BitVec 4) (s : State), s.initd = true →
      exec (p.1 c) s =
        .next { s with rs := some (p.2.1 ++ c), pd := [], outputs := s.outputs ++ [⟨.zero, []⟩] } ∧
      kindOfStatus (p.2.1 ++ c) = some p.2.2.1 ∧ expected (p.2.1 ++ c) = p.2.2.2

/-! ### Data bytes -/

/-- A data byte with no running status answers -2 and changes nothing, for every value and every table, again and again;
the block then takes a status byte as always, and a real-time byte there is no error (43_data_bytes.md R88). -/
def Obligations.DataByteWithoutRunningStatus : Prop :=
  ∀ (d : BitVec 7) (s : State), s.initd = true → s.rs = none →
    ∃ t, exec (.data d) s = .next t ∧ t = { s with outputs := s.outputs ++ [⟨.badChannelState, []⟩] } ∧
      (∀ d' : BitVec 7,
        exec (.data d') t = .next { t with outputs := t.outputs ++ [⟨.badChannelState, []⟩] }) ∧
      (∀ b, isStatusByte b = true →
        exec (decodeByte b) t = .next { t with rs := some b, pd := [], outputs := t.outputs ++ [⟨.zero, []⟩] }) ∧
      ∀ b, isRealTimeByte b = true →
        ∃ u o, exec (decodeByte b) t = .next u ∧ u.outputs = t.outputs ++ [o] ∧ (o.result = .zero ∨ o.result = .one)

/-- The result -2 is raised by RECEIVE of a data byte with no running status, and by nothing else; then nothing but the
output port changes and no event is emitted (60_exceptions.md R104). -/
def Obligations.BadChannelStateExactlyThen : Prop :=
  (∀ (i : Instr) (s t : State) (o : Output), exec i s = .next t → t.outputs = s.outputs ++ [o] →
    (o.result = .badChannelState ↔ (∃ d, opClass i = .data d) ∧ s.rs = none)) ∧
  ∀ (i : Instr) (s t : State) (o : Output), exec i s = .next t → t.outputs = s.outputs ++ [o] →
    o.result = .badChannelState → t = { s with outputs := s.outputs ++ [⟨.badChannelState, []⟩] }

/-- The first data byte of a two-data-byte message is buffered with result 0 and no event, the running status unchanged;
real-time bytes and REGISTER leave it there, a status byte of either other kind and INIT drop it (43_data_bytes.md R89). -/
def Obligations.FirstOfTwoDataBytesIsBuffered : Prop :=
  ∀ (d : BitVec 7) (s : State) (b : Byte), s.initd = true → isStatusByte b = true → s.rs = some b → expected b = 2 →
    s.pd = [] →
    ∃ t, exec (.data d) s = .next t ∧ t = { s with pd := [dataByte d], outputs := s.outputs ++ [⟨.zero, []⟩] } ∧
      (∀ (i : Instr) (u : State), exec i t = .next u →
        (opClass i = .realTime ∨ ∃ k h, opClass i = .register k h) → u.pd = [dataByte d]) ∧
      ∀ (i : Instr) (u : State), exec i t = .next u →
        (opClass i = .init ∨ opClass i = .unrecognised ∨ ∃ b', opClass i = .status b') → u.pd = []

/-- The second data byte completes the message: the slot read is the one of the running status's kind at this moment, data1
is the byte that arrived first, data2 the second, the buffer is emptied, the running status is kept; 1 and one event when the
slot is populated, 0 and none when it is empty (43_data_bytes.md R90). -/
def Obligations.SecondDataByteCompletes : Prop :=
  ∀ (d : BitVec 7) (s : State) (b p : Byte) (k : Kind), s.initd = true → s.rs = some b → kindOfStatus b = some k →
    expected b = 2 → s.pd = [p] →
    (s.slot k = none → exec (.data d) s = .next { s with pd := [], outputs := s.outputs ++ [⟨.zero, []⟩] }) ∧
    ∀ h, s.slot k = some h →
      exec (.data d) s = .next { s with
        pd := [], outputs := s.outputs ++ [⟨.one, [⟨k, h, (loNibble b).zeroExtend 8, p, dataByte d⟩]⟩] }

/-- The data byte of a one-data-byte message completes it with data2 = 0, "this spec uses zero" (43_data_bytes.md R91). -/
def Obligations.OnlyDataByteCompletes : Prop :=
  ∀ (d : BitVec 7) (s : State) (b : Byte) (k : Kind), s.initd = true → s.rs = some b → kindOfStatus b = some k →
    expected b = 1 → s.pd = [] →
    (s.slot k = none → exec (.data d) s = .next { s with pd := [], outputs := s.outputs ++ [⟨.zero, []⟩] }) ∧
    ∀ h, s.slot k = some h →
      exec (.data d) s = .next { s with
        pd := [], outputs := s.outputs ++ [⟨.one, [⟨k, h, (loNibble b).zeroExtend 8, dataByte d, 0#8⟩]⟩] }

/-- The completion of each of the seven channel-voice kinds, in terms of its high nibble and channel (43_data_bytes.md R93
to R99). Which nibble is which kind is from the source for 0x9 and 0xC and from general knowledge for the others (G3). -/
def Obligations.EachVoiceKindCompletes : Prop :=
  (∀ p ∈ [(0x8#4, Kind.noteOff), (0x9#4, Kind.noteOn), (0xA#4, Kind.polyAftertouch), (0xB#4, Kind.controlChange),
      (0xE#4, Kind.pitchBend)],
    ∀ (c : BitVec 4) (q d : BitVec 7) (s : State), s.initd = true → s.rs = some (p.1 ++ c) → s.pd = [dataByte q] →
      exec (.data d) s = .next { s with
        pd := [], outputs := s.outputs ++ [dispatched s p.2 (c.zeroExtend 8) (dataByte q) (dataByte d)] }) ∧
  ∀ p ∈ [(0xC#4, Kind.programChange), (0xD#4, Kind.channelAftertouch)],
    ∀ (c : BitVec 4) (d : BitVec 7) (s : State), s.initd = true → s.rs = some (p.1 ++ c) → s.pd = [] →
      exec (.data d) s = .next { s with
        pd := [], outputs := s.outputs ++ [dispatched s p.2 (c.zeroExtend 8) (dataByte d) 0#8] }

/-- Running status: with a message of running status `b` just opened or just completed, every further group of data bytes
of the expected length is one more message of the same kind and channel, for as long as data bytes come, whether or not
the slot is populated, and the state after each is again that one (43_data_bytes.md R92). -/
def Obligations.RunningStatusIsReused : Prop :=
  ∀ (s : State) (b : Byte) (k : Kind), s.initd = true → s.rs = some b → kindOfStatus b = some k → s.pd = [] →
    (expected b = 2 → ∀ ps : List (BitVec 7 × BitVec 7),
      receiveAll (ps.flatMap fun p => [dataByte p.1, dataByte p.2]) s = .next { s with
        outputs := s.outputs ++ ps.flatMap fun p =>
          [⟨.zero, []⟩, dispatched s k (channelOf b) (dataByte p.1) (dataByte p.2)] }) ∧
    (expected b = 1 → ∀ ds : List (BitVec 7),
      receiveAll (ds.map dataByte) s = .next { s with
        outputs := s.outputs ++ ds.map fun d => dispatched s k (channelOf b) (dataByte d) 0#8 })

/-! ### Unrecognised status bytes -/

/-- A byte in 0xF0 to 0xF7 clears the running status and the buffer in every state, with result 0 and no event; the low three
bits are ignored (44_unrecognised_status_bytes.md R100). -/
def Obligations.UnrecognisedByteClearsParser : Prop :=
  (∀ (x : BitVec 3) (s : State), s.initd = true →
    exec (.sysUnrecognised x) s =
      .next { s with rs := none, pd := [], outputs := s.outputs ++ [⟨.zero, []⟩] }) ∧
  ∀ b : Byte, (0xF0 ≤ b.toNat ∧ b.toNat ≤ 0xF7) ↔ ∃ x, decodeByte b = .sysUnrecognised x

/-- What follows an unrecognised status byte: until the next channel-voice status byte the block stays idle; every data byte
is answered -2, one error per byte, every unrecognised byte 0, and real-time bytes are dispatched as always
(44_unrecognised_status_bytes.md R101, derived there from R100 and R88; 41_realtime_bytes.md R70). The three zero arguments of
a real-time dispatch are the spec's decision D8 (log 7). -/
def Obligations.NothingAssemblesUntilAStatusByte : Prop :=
  ∀ (bs : List Byte) (s : State), s.initd = true → s.rs = none → s.pd = [] → (∀ b ∈ bs, isStatusByte b = false) →
    ∃ os, receiveAll bs s = .next { s with outputs := s.outputs ++ os } ∧ os.length = bs.length ∧
      ∀ p ∈ bs.zip os,
        (isDataByte p.1 = true → p.2 = ⟨.badChannelState, []⟩) ∧
        (isUnrecognisedByte p.1 = true → p.2 = ⟨.zero, []⟩) ∧
        ∀ k, kindOfRealTime p.1 = some k → p.2 = dispatched s k 0#8 0#8 0#8

/-! ### REGISTER -/

/-- REGISTER (40_host_operations_and_registry.md R65): a kind of 15 or more answers -1 and changes nothing, whatever the
handler; a valid one answers 0, its slot becomes the operand, cleared when that is empty, and no other slot and no other
cell changes, in every parser state; no event either way. Last registration wins. From inside a handler it is refused, by
the spec's decision D16 and with the model's origin mark (log 9). -/
def Obligations.RegisterWritesOneSlot : Prop :=
  (∀ (kind : BitVec 8) (h : Option Handler) (s : State), s.initd = true → 15 ≤ kind.toNat →
    exec (.register kind h) s = .next { s with outputs := s.outputs ++ [⟨.badEventHandler, []⟩] }) ∧
  (∀ (k : Kind) (h : Option Handler) (s : State), s.initd = true →
    ∃ t, exec (.register k.code h) s = .next t ∧ t.slot k = h ∧ (∀ k', k' ≠ k → t.slot k' = s.slot k') ∧
      { t with ht := s.ht } = { s with outputs := s.outputs ++ [⟨.zero, []⟩] }) ∧
  (∀ kind : BitVec 8, kind.toNat < 15 → ∃ k : Kind, k.code = kind) ∧
  (∀ (k : Kind) (h h' : Option Handler) (s : State), s.initd = true →
    ∃ t u, execAll [.register k.code h, .register k.code h'] s = .next t ∧ exec (.register k.code h') s = .next u ∧
      t.ht = u.ht) ∧
  ∀ (s : State) (p : PortWord) (rest : List Request), p.opsel = 0b01#2 → s.pending = ⟨.handler, .port p⟩ :: rest →
    step s = .refused .fromHandler

/-- The result -1 is raised by REGISTER with a kind that is not one of the 15 defined values, and by nothing else; then
nothing but the output port changes (60_exceptions.md R103). -/
def Obligations.BadEventHandlerExactlyThen : Prop :=
  (∀ (i : Instr) (s t : State) (o : Output), exec i s = .next t → t.outputs = s.outputs ++ [o] →
    (o.result = .badEventHandler ↔ ∃ kind h, i = .register kind h ∧ 15 ≤ kind.toNat)) ∧
  ∀ (i : Instr) (s t : State) (o : Output), exec i s = .next t → t.outputs = s.outputs ++ [o] →
    o.result = .badEventHandler → t = { s with outputs := s.outputs ++ [⟨.badEventHandler, []⟩] }

/-- A REGISTER between the two data bytes of a message takes effect for that message: the slot is read when the last data
byte arrives (20_memory.md R42, derived there). -/
def Obligations.RegisterInsideMessageTakesEffect : Prop :=
  ∀ (s : State) (b : Byte) (k : Kind) (d d' : BitVec 7) (h : Handler), s.initd = true → s.rs = some b →
    kindOfStatus b = some k → expected b = 2 → s.pd = [] →
    ∃ t, execAll [.data d, .register k.code (some h), .data d'] s = .next t ∧ t.rs = some b ∧ t.pd = [] ∧
      t.slot k = some h ∧
      t.outputs = s.outputs ++
        [⟨.zero, []⟩, ⟨.zero, []⟩, ⟨.one, [⟨k, h, channelOf b, dataByte d, dataByte d'⟩]⟩]

/-! ### RECEIVE as a whole -/

/-- The host operation RECEIVE and the byte classes agree in every state: the whole pseudocode of
40_host_operations_and_registry.md R67 does on each byte what the rules of files 41 to 44 say its class does. That a byte
class is RECEIVE of its byte is deduced (log 5); on the parser states 10_state.md R20 excludes, both refuse a data byte, which
is the model's choice (log 10). -/
def Obligations.ReceiveAgreesWithByteClasses : Prop :=
  ∀ (b : Byte) (s : State), exec (.receive b) s = exec (decodeByte b) s

/-- The transition table of the Byte State Machine, row by row (40_host_operations_and_registry.md R68): `idle`, `A(s, [])`
and `A(s, [d])` against a real-time byte, a status byte, a data byte and an unrecognised byte. RECEIVE completes on each.
The zero arguments of a real-time dispatch are the spec's decision D8 (log 7). -/
def Obligations.ReceiveFollowsTransitionTable : Prop :=
  ∀ (s : State) (b : Byte), s.initd = true →
    (∀ k, kindOfRealTime b = some k →
      exec (.receive b) s = .next { s with outputs := s.outputs ++ [dispatched s k 0#8 0#8 0#8] }) ∧
    (isStatusByte b = true →
      exec (.receive b) s = .next { s with rs := some b, pd := [], outputs := s.outputs ++ [⟨.zero, []⟩] }) ∧
    (isUnrecognisedByte b = true →
      exec (.receive b) s = .next { s with rs := none, pd := [], outputs := s.outputs ++ [⟨.zero, []⟩] }) ∧
    (isDataByte b = true →
      (s.rs = none →
        exec (.receive b) s = .next { s with outputs := s.outputs ++ [⟨.badChannelState, []⟩] }) ∧
      ∀ r k, s.rs = some r → kindOfStatus r = some k →
        (expected r = 1 → s.pd = [] →
          exec (.receive b) s = .next { s with
            pd := [], outputs := s.outputs ++ [dispatched s k (channelOf r) b 0#8] }) ∧
        (expected r = 2 → s.pd = [] →
          exec (.receive b) s = .next { s with pd := [b], outputs := s.outputs ++ [⟨.zero, []⟩] }) ∧
        ∀ d, expected r = 2 → s.pd = [d] →
          exec (.receive b) s = .next { s with
            pd := [], outputs := s.outputs ++ [dispatched s k (channelOf r) d b] })

/-- Each of the seven message-level pseudo-operations, from any state of an initialised block: the status byte and all data
bytes but the last answer 0, the last answers 1 with the one event when the slot is populated and 0 with none when it is
empty, and the running status stays (30_encoding.md R62, 42_ R79, 43_ R90, R91; nibbles as in G3). -/
def Obligations.WholeMessagesDispatchOnce : Prop :=
  ∀ (ch : BitVec 4) (d1 d2 : BitVec 7) (s : State), s.initd = true →
    (∀ p ∈ [(PseudoOp.noteOff ch d1 d2, 0x8#4, Kind.noteOff), (PseudoOp.noteOn ch d1 d2, 0x9#4, Kind.noteOn),
        (PseudoOp.polyAftertouch ch d1 d2, 0xA#4, Kind.polyAftertouch),
        (PseudoOp.controlChange ch d1 d2, 0xB#4, Kind.controlChange),
        (PseudoOp.pitchBend ch d1 d2, 0xE#4, Kind.pitchBend)],
      receiveAll p.1.expand s = .next { s with
        rs := some (p.2.1 ++ ch), pd := [],
        outputs := s.outputs ++
          [⟨.zero, []⟩, ⟨.zero, []⟩, dispatched s p.2.2 (ch.zeroExtend 8) (dataByte d1) (dataByte d2)] }) ∧
    ∀ p ∈ [(PseudoOp.programChange ch d1, 0xC#4, Kind.programChange),
        (PseudoOp.channelAftertouch ch d1, 0xD#4, Kind.channelAftertouch)],
      receiveAll p.1.expand s = .next { s with
        rs := some (p.2.1 ++ ch), pd := [],
        outputs := s.outputs ++ [⟨.zero, []⟩, dispatched s p.2.2 (ch.zeroExtend 8) (dataByte d1) 0#8] }

/-! ### Whole-machine rules -/

/-- Who writes what (10_state.md R29): the write matrix, row by row, for every operation that completes; a blank cell is a
cell left as it was. The input port and all earlier outputs are left alone by every operation. -/
def Obligations.WriteMatrix : Prop :=
  ∀ (i : Instr) (s t : State), exec i s = .next t →
    t.pending = s.pending ∧ (∃ o, t.outputs = s.outputs ++ [o]) ∧
    match opClass i with
    | .init => t.rs = none ∧ t.pd = [] ∧ ∀ k, t.slot k = none
    | .register kind h => t.rs = s.rs ∧ t.pd = s.pd ∧
        (15 ≤ kind.toNat → t.ht = s.ht) ∧
        (∀ k : Kind, k.code = kind → t.slot k = h) ∧ (∀ k : Kind, k.code ≠ kind → t.slot k = s.slot k)
    | .realTime => t.rs = s.rs ∧ t.pd = s.pd ∧ t.ht = s.ht
    | .status b => t.rs = some b ∧ t.pd = [] ∧ t.ht = s.ht
    | .data d => t.rs = s.rs ∧ t.ht = s.ht ∧
        (s.rs = none → t.pd = s.pd) ∧
        ∀ b, s.rs = some b →
          (s.pd.length + 1 = expected b → t.pd = []) ∧ (s.pd.length + 1 ≠ expected b → t.pd = s.pd ++ [d])
    | .unrecognised => t.rs = none ∧ t.pd = [] ∧ t.ht = s.ht

/-- The complete map from operation to possible results (60_exceptions.md R105), and that each listed result does occur on
an initialised block at rest. -/
def Obligations.PossibleResults : Prop :=
  (∀ (i : Instr) (s t : State), exec i s = .next t →
    ∃ o, t.outputs = s.outputs ++ [o] ∧ o.result ∈ (opClass i).results) ∧
  ∀ (i : Instr), ∀ r ∈ (opClass i).results, (∀ kind h, i ≠ .register kind h) →
    ∃ s t es, s.initd = true ∧ AtRest s ∧ exec i s = .next t ∧ t.outputs = s.outputs ++ [⟨r, es⟩]

/-- Entry on an error: the state after an operation that answers a negative result equals the state before it, but for the
one new output, which carries no event; the block saves nothing and changes nothing (60_exceptions.md R109). -/
def Obligations.ErrorsChangeNothing : Prop :=
  ∀ (i : Instr) (s t : State) (o : Output), exec i s = .next t → t.outputs = s.outputs ++ [o] → o.result.toInt < 0 →
    t = { s with outputs := s.outputs ++ [o] } ∧ o.events = []

/-- Results and events belong together, at every step from every state: at most one more output, a non-negative result is
the number of events of its operation, an error has none, and INIT and REGISTER emit none (00_scope.md R10, where the
event list as the block's output is the spec's decisions D1 and D7). -/
def Obligations.OutputsStayConsistent : Prop :=
  (∀ s t : State, step s = .next t → (∀ o ∈ s.outputs, o.Consistent) →
    (∀ o ∈ t.outputs, o.Consistent) ∧ (t = s ∨ ∃ o, t.outputs = s.outputs ++ [o])) ∧
  (∀ (i : Instr) (s t : State) (o : Output), exec i s = .next t → t.outputs = s.outputs ++ [o] →
    (0 ≤ o.result.toInt → (o.events.length : Int) = o.result.toInt) ∧
    (o.result.toInt < 0 → o.events = []) ∧
    (opClass i = .init ∨ (∃ k h, opClass i = .register k h) → o.events = []))

/-- Before the first INIT every operation but INIT is refused, in every state, so that no cell is read; and INITD, once
true, stays true (70_reset_and_hazards.md R118, 10_state.md R18, by the spec's decision D12). -/
def Obligations.OnlyInitBeforeInit : Prop :=
  (∀ (i : Instr) (s : State), s.initd = false → i ≠ .init → exec i s = .refused .beforeInit) ∧
  ∀ (i : Instr) (s t : State), exec i s = .next t → t.initd = true

/-- The invariants I1 to I4 of 10_state.md R20 are kept by every step from every state that has them. -/
def Obligations.StepKeepsInvariants : Prop :=
  ∀ s t : State, AtRest s → step s = .next t → AtRest t

/-- The licensed runs are exactly the ones that complete: from a state with the invariants, a list of requests all from the
host, all selecting an operation, INIT first, runs to its end with one output per request and the invariants kept; any
other list is refused at some step (60_exceptions.md R116: no fault, no stuck state, three refusals). -/
def Obligations.LicensedRunsComplete : Prop :=
  ∀ s : State, AtRest s →
    (Licensed s.initd s.pending → ∃ t, runSteps s.pending.length s = .next t ∧ t.pending = [] ∧ AtRest t ∧
      t.outputs.length = s.outputs.length + s.pending.length) ∧
    (¬ Licensed s.initd s.pending → ∃ r, runSteps s.pending.length s = .refused r ∧
      (r = .beforeInit ∨ r = .fromHandler ∨ r = .noSuchOperation))

/-- The block keeps no record of past operations and sees no future one: what an operation does to the block and what it
answers depend on the cells of 10_state.md R13 alone (10_state.md R19). -/
def Obligations.PortsAreNotState : Prop :=
  ∀ (i : Instr) (s t : State), SameBlock s t → SameAnswer s t (exec i s) (exec i t)

/-- Handlers do not steer the parser: two blocks that differ only in their tables, and ports, go through the same parser
states; with no registration every RECEIVE still runs (70_reset_and_hazards.md R119, 60_exceptions.md R107). -/
def Obligations.HandlersDoNotSteerParser : Prop :=
  ∀ (i : Instr) (s t : State), s.rs = t.rs → s.pd = t.pd → s.initd = t.initd → SameParser (exec i s) (exec i t)

/-- The block never looks inside a handler: renaming every handler in the state, by any function at all, renames the
handlers in the next state and changes nothing else (92_eei_decisions.md D6; log 6). -/
def Obligations.HandlersAreOpaque : Prop :=
  ∀ (f : Handler → Handler) (s : State), step (s.rename f) = renameOutcome f (step s)

/-- Given twice in a row, a channel-voice status byte, an unrecognised status byte, a REGISTER and an INIT leave the same
block as given once; a real-time byte leaves the block as it was (20_memory.md R38, derived there; INIT by D13). -/
def Obligations.RepeatingChangesNothingMore : Prop :=
  ∀ (i : Instr) (s t : State), exec i s = .next t →
    ((∃ b, opClass i = .status b) ∨ opClass i = .unrecognised ∨ (∃ k h, opClass i = .register k h) ∨
      opClass i = .init → ∃ u, exec i t = .next u ∧ SameBlock u t) ∧
    (opClass i = .realTime → SameBlock s t)

/-- The register-level form (10_state.md R22, the spec's own, D15), for every `HANDLER_W` = `W`: a state has one exactly when
it buffers at most two bytes and its tags fit `W` bits; whatever the cells that are not meaningful hold, that form read back
is the state; a register file written back is the same in every meaningful cell; and two register files hold the same state
exactly when they agree on the meaningful cells. -/
def Obligations.MeaninglessCellsDoNotMatter : Prop :=
  ∀ W : Nat,
    (∀ (s : State) (junk : Regs W), (s.toRegs junk).isSome = true ↔ s.pd.length ≤ 2 ∧ s.handlersFit W = true) ∧
    (∀ (s : State) (junk r : Regs W), s.toRegs junk = some r → r.load s = s) ∧
    (∀ (s : State) (junk r : Regs W), r.cnt ≠ 3#2 → ∃ r', (r.load s).toRegs junk = some r' ∧ r'.SameMeaning r) ∧
    ∀ r r' : Regs W, r.cnt ≠ 3#2 → r'.cnt ≠ 3#2 → ((∀ s, r.load s = r'.load s) ↔ r.SameMeaning r')

/-- Streams are independent: a step of one block of a system changes no other block, and does to its own what a step of it
alone does (60_exceptions.md R114, by the spec's decision D17; log 13). It speaks of steps that complete: what a refused one
means for the other blocks is the model's choice (log 13). -/
def Obligations.StreamsAreIndependent : Prop :=
  ∀ (sys : System) (n : Nat) (s t : State), sys[n]? = some s → step s = .next t →
    ∃ sys', sys.stepAt n = .next sys' ∧ sys'.length = sys.length ∧ sys'[n]? = some t ∧
      ∀ m, m ≠ n → sys'[m]? = sys[m]?

/-- `H` is an argument (00_scope.md R6, 92_eei_decisions.md D6; log 6): over any type of handler values, and whatever handler
each tag of the wire stands for, replacing every handler by any function into any other type commutes with every operation
and every step. The machine behind the host's interface is the case in which a tag stands for itself. -/
def Obligations.HandlerTypeIsAnArgument : Prop :=
  (∀ (H H' : Type) (value : Handler → H) (f : H → H'),
    (∀ (i : Instr) (s : State H),
      execOver (fun h => f (value h)) i (s.mapHandlers f) = mapOutcome f (execOver value i s)) ∧
    ∀ s : State H, stepOver (fun h => f (value h)) (s.mapHandlers f) = mapOutcome f (stepOver value s)) ∧
  (∀ (i : Instr) (s : State), execOver id i s = exec i s) ∧ ∀ s : State, stepOver id s = step s

/-- A block with `HANDLER_W` = `W` keeps a register-level form (10_state.md R22; log 6): when the tags in its slots and on its
wires fit `W` bits, they still fit after any step; and an initialised block at rest whose tags fit has a register form. -/
def Obligations.StepKeepsRegisterForm : Prop :=
  ∀ W : Nat,
    (∀ s t : State, s.handlersFit W = true → (∀ r ∈ s.pending, r.word.fits W = true) → step s = .next t →
      t.handlersFit W = true ∧ ∀ r ∈ t.pending, r.word.fits W = true) ∧
    ∀ (s : State) (junk : Regs W), s.initd = true → AtRest s → s.handlersFit W = true → (s.toRegs junk).isSome = true
end

