-- ==== Sys2Proof/Laws/Decode.lean ====
section
/-! SUPPORT. What the bit fields, ranges and kinds of an assembled byte are (30_encoding.md R44 to R51). -/

namespace Sys2Proof.Machine

/-- The index read from a kind's own index is the kind. -/
@[simp] theorem Kind.ofIndex_index (k : Kind) : Kind.ofIndex k.index.val = some k := by cases k <;> rfl

/-- A kind that an index reads as has that index. -/
theorem Kind.index_of_ofIndex {n : Nat} {k : Kind} (h : Kind.ofIndex n = some k) : k.index.val = n := by
  have hn : n < 15 := by
    simp only [Kind.ofIndex, List.getElem?_eq_some_iff] at h
    exact h.1
  interval_cases n <;> (simp [Kind.ofIndex, Kind.all] at h; subst h; rfl)

/-- A kind's own code names it. -/
@[simp] theorem Kind.ofCode_code (k : Kind) : Kind.ofCode k.code = some k := by cases k <;> rfl

/-- The kind a status byte of each nibble has, and what it expects (R50, 10_state.md R16). -/
theorem statusByte_kind : ∀ c : BitVec 4,
    kindOfStatus (statusByte 0x8#4 c) = some .noteOff ∧ kindOfStatus (statusByte 0x9#4 c) = some .noteOn ∧
    kindOfStatus (statusByte 0xA#4 c) = some .polyAftertouch ∧
    kindOfStatus (statusByte 0xB#4 c) = some .controlChange ∧
    kindOfStatus (statusByte 0xC#4 c) = some .programChange ∧
    kindOfStatus (statusByte 0xD#4 c) = some .channelAftertouch ∧
    kindOfStatus (statusByte 0xE#4 c) = some .pitchBend := by
  decide

theorem statusByte_expected : ∀ c : BitVec 4,
    expected (statusByte 0x8#4 c) = 2 ∧ expected (statusByte 0x9#4 c) = 2 ∧ expected (statusByte 0xA#4 c) = 2 ∧
    expected (statusByte 0xB#4 c) = 2 ∧ expected (statusByte 0xC#4 c) = 1 ∧ expected (statusByte 0xD#4 c) = 1 ∧
    expected (statusByte 0xE#4 c) = 2 := by
  decide

/-- The channel of a status byte is its low nibble, zero-extended (R56). -/
theorem statusByte_channel : ∀ n c : BitVec 4, channelOf (statusByte n c) = c.zeroExtend 8 := by decide

/-- A data byte is below the threshold (R44). -/
theorem dataByte_isData : ∀ d : BitVec 7, isDataByte (dataByte d) = true ∧ dataByte d < 0x80#8 := by decide

/-- A status byte has a kind exactly when it is in the channel-voice range (R47, R50). -/
theorem kindOfStatus_isSome : ∀ b : Byte, (kindOfStatus b).isSome = isStatusByte b := by decide

/-- A byte has a real-time kind exactly when it is in the real-time range (R46, R50). -/
theorem kindOfRealTime_isSome : ∀ b : Byte, (kindOfRealTime b).isSome = isRealTimeByte b := by decide

/-- The expected count is 1 or 2. -/
theorem expected_cases (b : Byte) : expected b = 1 ∨ expected b = 2 := by
  unfold expected
  split <;> simp

end Sys2Proof.Machine
end

