-- ==== Sys2Proof/Laws/State.lean ====
section
/-! SUPPORT. The small lemmas of State: each field under each named update, and the Handler Table as an array of
independent slots (10_state.md R17, R25). -/

namespace Sys2Proof.Machine

variable {H : Type}

@[simp] theorem State.answer_rs (s : State H) (r : Result) (es : List (Event H)) : (s.answer r es).rs = s.rs := rfl
@[simp] theorem State.answer_pd (s : State H) (r : Result) (es : List (Event H)) : (s.answer r es).pd = s.pd := rfl
@[simp] theorem State.answer_ht (s : State H) (r : Result) (es : List (Event H)) : (s.answer r es).ht = s.ht := rfl
@[simp] theorem State.answer_initd (s : State H) (r : Result) (es : List (Event H)) :
    (s.answer r es).initd = s.initd := rfl
@[simp] theorem State.answer_pending (s : State H) (r : Result) (es : List (Event H)) :
    (s.answer r es).pending = s.pending := rfl
@[simp] theorem State.answer_outputs (s : State H) (r : Result) (es : List (Event H)) :
    (s.answer r es).outputs = s.outputs ++ [⟨r, es⟩] := rfl

@[simp] theorem State.setSlot_rs (s : State H) (k : Kind) (h : Option H) : (s.setSlot k h).rs = s.rs := rfl
@[simp] theorem State.setSlot_pd (s : State H) (k : Kind) (h : Option H) : (s.setSlot k h).pd = s.pd := rfl
@[simp] theorem State.setSlot_ht (s : State H) (k : Kind) (h : Option H) :
    (s.setSlot k h).ht = s.ht.set k.index h := rfl
@[simp] theorem State.setSlot_initd (s : State H) (k : Kind) (h : Option H) :
    (s.setSlot k h).initd = s.initd := rfl
@[simp] theorem State.setSlot_pending (s : State H) (k : Kind) (h : Option H) :
    (s.setSlot k h).pending = s.pending := rfl
@[simp] theorem State.setSlot_outputs (s : State H) (k : Kind) (h : Option H) :
    (s.setSlot k h).outputs = s.outputs := rfl

/-- Distinct kinds have distinct slots (R50). -/
theorem Kind.index_injective : ∀ k k' : Kind, k.index = k'.index → k = k' := by
  intro k k' h
  cases k <;> cases k' <;> first | rfl | exact absurd h (by decide)

/-- The slot written reads as written. -/
@[simp] theorem State.slot_setSlot_same (s : State H) (k : Kind) (h : Option H) : (s.setSlot k h).slot k = h := by
  simp [State.slot]

/-- "Writing one never changes another" (R25). -/
theorem State.slot_setSlot_other (s : State H) {k k' : Kind} (h : Option H) (hk : k' ≠ k) :
    (s.setSlot k h).slot k' = s.slot k' := by
  have hne : k.index.val ≠ k'.index.val := fun he => hk (Kind.index_injective _ _ (Fin.ext he.symm))
  simp [State.slot, hne]

/-- A slot depends on the table alone. -/
theorem State.slot_of_ht {s t : State H} (h : s.ht = t.ht) (k : Kind) : s.slot k = t.slot k := by
  simp [State.slot, h]

/-- Every slot of the empty table is empty (R28). -/
@[simp] theorem emptyTable_getElem (n : Nat) (h : n < Config.nKinds) : (emptyTable : HandlerTable H)[n] = none := by
  simp [emptyTable]

end Sys2Proof.Machine
end

