-- ==== Sys2Proof/Laws/Ops.lean ====
section
/-! SUPPORT. One specification lemma per shared operation, and one inversion lemma per operation that can end in more than
one way: the provers cite these instead of unfolding the operations. -/

namespace Sys2Proof.Machine

variable {H : Type}

theorem whenInit_of_init {s : State H} (h : s.initd = true) (body : Outcome H) : whenInit s body = body := by
  simp [whenInit, h]

theorem whenInit_before {s : State H} (h : s.initd = false) (body : Outcome H) :
    whenInit s body = .refused .beforeInit := by
  simp [whenInit, h]

/-- If a guarded operation completes, the block was initialised and the body completed. -/
theorem whenInit_next {s t : State H} {body : Outcome H} (h : whenInit s body = .next t) :
    s.initd = true ∧ body = .next t := by
  unfold whenInit at h
  split at h
  · exact ⟨‹_›, h⟩
  · cases h

theorem done_next {s t : State H} {r : Result} {es : List (Event H)} : done s r es = .next t ↔ t = s.answer r es :=
  ⟨fun h => by cases h; rfl, fun h => by subst h; rfl⟩

/-- An error answers its result and changes no cell of the block (60_exceptions.md R102). -/
theorem raise_next {s t : State H} {e : Error} : raise e s = .next t ↔ t = s.answer e.result [] := done_next

/-- A dispatch ends in the state given, with the slot's answer on the output port (40_ R66). -/
theorem answerDispatch_eq (s t : State H) (k : Kind) (args : Byte × Byte × Byte) :
    answerDispatch s t k args =
      .next { t with outputs := t.outputs ++ [dispatched s k args.1 args.2.1 args.2.2] } := by
  unfold answerDispatch dispatch dispatched
  cases s.slot k <;> rfl

theorem receiveRealTime_init {s : State H} (h : s.initd = true) (k : Kind) :
    receiveRealTime k s = .next { s with outputs := s.outputs ++ [dispatched s k 0#8 0#8 0#8] } := by
  simp only [receiveRealTime, whenInit_of_init h, answerDispatch_eq]
  rfl

theorem receiveStatus_init {s : State H} (h : s.initd = true) (b : Byte) :
    receiveStatus b s = .next { s with rs := some b, pd := [], outputs := s.outputs ++ [⟨.zero, []⟩] } := by
  simp only [receiveStatus, whenInit_of_init h, done]
  rfl

theorem receiveUnrecognised_init {s : State H} (h : s.initd = true) :
    receiveUnrecognised s = .next { s with rs := none, pd := [], outputs := s.outputs ++ [⟨.zero, []⟩] } := by
  simp only [receiveUnrecognised, whenInit_of_init h, done]
  rfl

/-- The four ways a data byte can complete (43_data_bytes.md R88 to R91). -/
inductive DataStep (d : Byte) (s t : State H) : Prop where
  | noStatus (h : s.rs = none) (ht : t = { s with outputs := s.outputs ++ [⟨.badChannelState, []⟩] })
  | first (b : Byte) (k : Kind) (h : s.rs = some b) (hk : kindOfStatus b = some k) (he : expected b = 2)
      (hp : s.pd = []) (ht : t = { s with pd := [d], outputs := s.outputs ++ [⟨.zero, []⟩] })
  | second (b p : Byte) (k : Kind) (h : s.rs = some b) (hk : kindOfStatus b = some k) (he : expected b = 2)
      (hp : s.pd = [p])
      (ht : t = { s with pd := [], outputs := s.outputs ++ [dispatched s k (channelOf b) p d] })
  | only (b : Byte) (k : Kind) (h : s.rs = some b) (hk : kindOfStatus b = some k) (he : expected b = 1)
      (hp : s.pd = [])
      (ht : t = { s with pd := [], outputs := s.outputs ++ [dispatched s k (channelOf b) d 0#8] })

/-- If a data byte completes, it does so in one of the four ways. -/
theorem receiveData_next {d : Byte} {s t : State H} (h : receiveData d s = .next t) :
    s.initd = true ∧ DataStep d s t := by
  obtain ⟨hi, h⟩ := whenInit_next h
  refine ⟨hi, ?_⟩
  split at h
  · rename_i hrs
    exact .noStatus hrs (raise_next.mp h)
  · rename_i b hrs
    split at h
    · rename_i k hk he hp
      exact .first b _ hrs hk he hp (done_next.mp h)
    · rename_i k p hk he hp
      rw [completeMessage, answerDispatch_eq] at h
      cases h
      exact .second b p k hrs hk he hp (by simp [data1Of, data2Of, he])
    · rename_i k hk he hp
      rw [completeMessage, answerDispatch_eq] at h
      cases h
      exact .only b k hrs hk he hp (by simp [data1Of, data2Of, he, Config.placeholder])
    · cases h

/-- Each of the four ways is taken. -/
theorem receiveData_noStatus {s : State H} (hi : s.initd = true) (h : s.rs = none) (d : Byte) :
    receiveData d s = .next { s with outputs := s.outputs ++ [⟨.badChannelState, []⟩] } := by
  simp only [receiveData, whenInit_of_init hi, h, raise, done, State.answer, Error.result]

theorem receiveData_first {s : State H} {b : Byte} {k : Kind} (hi : s.initd = true) (h : s.rs = some b)
    (hk : kindOfStatus b = some k) (he : expected b = 2) (hp : s.pd = []) (d : Byte) :
    receiveData d s = .next { s with pd := [d], outputs := s.outputs ++ [⟨.zero, []⟩] } := by
  simp only [receiveData, whenInit_of_init hi, h, hk, he, hp, done, State.answer]

theorem receiveData_second {s : State H} {b p : Byte} {k : Kind} (hi : s.initd = true) (h : s.rs = some b)
    (hk : kindOfStatus b = some k) (he : expected b = 2) (hp : s.pd = [p]) (d : Byte) :
    receiveData d s = .next { s with pd := [], outputs := s.outputs ++ [dispatched s k (channelOf b) p d] } := by
  simp only [receiveData, whenInit_of_init hi, h, hk, he, hp, completeMessage, answerDispatch_eq]
  simp [data1Of, data2Of, he]

theorem receiveData_only {s : State H} {b : Byte} {k : Kind} (hi : s.initd = true) (h : s.rs = some b)
    (hk : kindOfStatus b = some k) (he : expected b = 1) (hp : s.pd = []) (d : Byte) :
    receiveData d s = .next { s with pd := [], outputs := s.outputs ++ [dispatched s k (channelOf b) d 0#8] } := by
  simp only [receiveData, whenInit_of_init hi, h, hk, he, hp, completeMessage, answerDispatch_eq]
  simp [data1Of, data2Of, he, Config.placeholder]

/-- REGISTER completes with -1 and nothing written, or with 0 and the one slot written (40_ R65). -/
theorem execRegister_next {kind : BitVec 8} {h : Option H} {s t : State H} (hx : execRegister kind h s = .next t) :
    s.initd = true ∧
      ((Kind.ofCode kind = none ∧ t = s.answer .badEventHandler []) ∨
        ∃ k, Kind.ofCode kind = some k ∧ t = (s.setSlot k h).answer .zero []) := by
  obtain ⟨hi, hx⟩ := whenInit_next hx
  refine ⟨hi, ?_⟩
  split at hx
  · exact .inl ⟨‹_›, raise_next.mp hx⟩
  · exact .inr ⟨_, ‹_›, done_next.mp hx⟩

theorem execRegister_invalid {s : State H} (hi : s.initd = true) {kind : BitVec 8} (hk : Kind.ofCode kind = none)
    (h : Option H) : execRegister kind h s = .next (s.answer .badEventHandler []) := by
  simp only [execRegister, whenInit_of_init hi, hk]
  rfl

theorem execRegister_valid {s : State H} (hi : s.initd = true) {kind : BitVec 8} {k : Kind}
    (hk : Kind.ofCode kind = some k) (h : Option H) :
    execRegister kind h s = .next ((s.setSlot k h).answer .zero []) := by
  simp only [execRegister, whenInit_of_init hi, hk]
  rfl

end Sys2Proof.Machine
end

