-- ==== Sys2Proof/Laws/OpenHandlers.lean ====
section
/-! SUPPORT. What replacing every handler does to each field and to each shared operation (92_eei_decisions.md D6). -/

namespace Sys2Proof.Machine

variable {H H' : Type} (f : H → H')

@[simp] theorem State.mapHandlers_rs (s : State H) : (s.mapHandlers f).rs = s.rs := rfl
@[simp] theorem State.mapHandlers_pd (s : State H) : (s.mapHandlers f).pd = s.pd := rfl
@[simp] theorem State.mapHandlers_initd (s : State H) : (s.mapHandlers f).initd = s.initd := rfl
@[simp] theorem State.mapHandlers_pending (s : State H) : (s.mapHandlers f).pending = s.pending := rfl
@[simp] theorem State.mapHandlers_outputs (s : State H) :
    (s.mapHandlers f).outputs = s.outputs.map (Output.mapHandlers f) := rfl

/-- A slot of the block with handlers replaced holds the replaced handler. -/
@[simp] theorem State.slot_mapHandlers (s : State H) (k : Kind) : (s.mapHandlers f).slot k = (s.slot k).map f := by
  simp [State.slot, State.mapHandlers]

/-- Writing a replaced handler is replacing after writing. -/
theorem State.setSlot_mapHandlers (s : State H) (k : Kind) (h : Option H) :
    (s.mapHandlers f).setSlot k (h.map f) = (s.setSlot k h).mapHandlers f := by
  simp [State.mapHandlers, State.setSlot]

theorem dispatched_mapHandlers (s : State H) (k : Kind) (ch d1 d2 : Byte) :
    dispatched (s.mapHandlers f) k ch d1 d2 = (dispatched s k ch d1 d2).mapHandlers f := by
  simp only [dispatched, State.slot_mapHandlers]
  cases s.slot k <;> simp [Output.mapHandlers, Event.mapHandler]

theorem done_mapHandlers (s : State H) (r : Result) : done (s.mapHandlers f) r [] = mapOutcome f (done s r []) := by
  simp [done, mapOutcome, State.mapHandlers, State.answer, Output.mapHandlers]

theorem answerDispatch_mapHandlers (s t : State H) (k : Kind) (args : Byte × Byte × Byte) :
    answerDispatch (s.mapHandlers f) (t.mapHandlers f) k args = mapOutcome f (answerDispatch s t k args) := by
  simp only [answerDispatch_eq, dispatched_mapHandlers]
  simp [mapOutcome, State.mapHandlers]

/-- The check of `initd` does not see handlers. -/
theorem whenInit_mapHandlers (s : State H) {body : Outcome H} {body' : Outcome H'} (h : body' = mapOutcome f body) :
    whenInit (s.mapHandlers f) body' = mapOutcome f (whenInit s body) := by
  subst h
  cases hi : s.initd <;> simp [whenInit, hi, mapOutcome]

end Sys2Proof.Machine
end

