-- ==== Sys2Proof/Laws/PerInstr.lean ====
section
/-! SUPPORT. Statements made of every instruction as syntax, one lemma per constructor. -/

namespace Sys2Proof.Laws.RowHits

/-- The word `w` matches the row of `i`, in that row's space. -/
def hitsRowOf (i : Instr) (w : WireWord) : Bool :=
  match w with
  | .stream b => i.row.space == .receiveByte && i.row.hits b
  | .port p => i.row.space == .opsel && i.row.hits (p.opsel.zeroExtend 8)

/-- The word an instruction is encoded as matches its own row of spec/opcode_table.json, in that row's space. -/
abbrev Statement (i : Instr) : Prop := hitsRowOf i (encode i) = true

theorem data (d : BitVec 7) : Statement (.data d) := by revert d; decide
theorem noteOff (c : BitVec 4) : Statement (.noteOff c) := by revert c; decide
theorem noteOn (c : BitVec 4) : Statement (.noteOn c) := by revert c; decide
theorem polyAftertouch (c : BitVec 4) : Statement (.polyAftertouch c) := by revert c; decide
theorem controlChange (c : BitVec 4) : Statement (.controlChange c) := by revert c; decide
theorem programChange (c : BitVec 4) : Statement (.programChange c) := by revert c; decide
theorem channelAftertouch (c : BitVec 4) : Statement (.channelAftertouch c) := by revert c; decide
theorem pitchBend (c : BitVec 4) : Statement (.pitchBend c) := by revert c; decide
theorem sysUnrecognised (x : BitVec 3) : Statement (.sysUnrecognised x) := by revert x; decide
theorem rtClock : Statement .rtClock := by decide
theorem rtF9 : Statement .rtF9 := by decide
theorem rtStart : Statement .rtStart := by decide
theorem rtContinue : Statement .rtContinue := by decide
theorem rtStop : Statement .rtStop := by decide
theorem rtFD : Statement .rtFD := by decide
theorem rtActiveSense : Statement .rtActiveSense := by decide
theorem rtReset : Statement .rtReset := by decide
theorem init : Statement .init := by decide
theorem register (kind : BitVec 8) (handler : Option Handler) : Statement (.register kind handler) := by
  cases handler <;> simp [Statement, hitsRowOf, Instr.row, Row.hits, encode, portOf, PortWord.withHandler]
theorem receive (b : Byte) : Statement (.receive b) := by
  simp [Statement, hitsRowOf, Instr.row, Row.hits, encode, portOf]

end Sys2Proof.Laws.RowHits
end

