-- ==== Sys2Proof/Laws/Regs.lean ====
section
/-! SUPPORT. The small lemmas of the register-level form (10_state.md R22) and of handlers that fit it. -/

namespace Sys2Proof.Machine

variable {W : Nat}

@[simp] theorem Regs.load_rs (r : Regs W) (s : State) : (r.load s).rs = r.rs := rfl
@[simp] theorem Regs.load_pd (r : Regs W) (s : State) : (r.load s).pd = r.pd := rfl
@[simp] theorem Regs.load_ht (r : Regs W) (s : State) : (r.load s).ht = r.ht := rfl
@[simp] theorem Regs.load_initd (r : Regs W) (s : State) : (r.load s).initd = s.initd := rfl
@[simp] theorem Regs.load_pending (r : Regs W) (s : State) : (r.load s).pending = s.pending := rfl
@[simp] theorem Regs.load_outputs (r : Regs W) (s : State) : (r.load s).outputs = s.outputs := rfl

/-- A state has a register form exactly when R22 gives it one. -/
theorem State.toRegs_isSome (s : State) (junk : Regs W) :
    (s.toRegs junk).isSome = true ↔ s.pd.length ≤ 2 ∧ s.handlersFit W = true := by
  unfold State.toRegs
  split <;> simp_all

theorem State.handlersFit_iff {s : State} :
    s.handlersFit W = true ↔ ∀ k : Fin Config.nKinds, (s.ht[k]).all (Handler.fits W) = true :=
  decide_eq_true_iff

/-- Whether the tags fit depends on the table alone. -/
theorem State.handlersFit_of_ht {s t : State} (h : s.ht = t.ht) : s.handlersFit W = t.handlersFit W := by
  simp [State.handlersFit, h]

/-- No tag in the empty table is too wide (R28). -/
theorem State.handlersFit_empty {s : State} (h : s.ht = emptyTable) : s.handlersFit W = true := by
  simp [State.handlersFit, h]

/-- A handler that fits may be stored, and clearing a slot is always fine. -/
theorem State.handlersFit_setSlot {s : State} (hs : s.handlersFit W = true) (k : Kind) {h : Option Handler}
    (hh : h.all (Handler.fits W) = true) : (s.setSlot k h).handlersFit W = true := by
  rw [State.handlersFit_iff] at hs ⊢
  intro j
  simp only [State.setSlot_ht, Fin.getElem_fin, Vector.getElem_set]
  split
  · exact hh
  · exact hs j

end Sys2Proof.Machine
end

