-- ==== Sys2Proof/Laws/Step.lean ====
section
/-! SUPPORT. What one step can do, and a run of steps unrolled by one. -/

namespace Sys2Proof.Machine

/-- A step that completes either had nothing to do, or performed the host's next request. -/
theorem step_next {s t : State} (h : step s = .next t) :
    (s.pending = [] ∧ t = s) ∨
      ∃ i w rest, s.pending = ⟨.host, w⟩ :: rest ∧ decode w = .ok i ∧ exec i { s with pending := rest } = .next t := by
  unfold step fetch at h
  rcases hp : s.pending with _ | ⟨⟨origin, w⟩, rest⟩
  · simp only [hp] at h
    cases h
    exact .inl ⟨rfl, rfl⟩
  · cases origin with
    | handler =>
      simp only [hp] at h
      cases h
    | host =>
      simp only [hp] at h
      cases hd : decode w with
      | error e =>
        simp only [hd] at h
        cases h
      | ok i =>
        simp only [hd] at h
        exact .inr ⟨i, w, rest, rfl, hd, h⟩

@[simp] theorem runSteps_zero (s : State) : runSteps 0 s = .next s := rfl

/-- A run of one step more is that step, and then the run from where it leads. -/
theorem runSteps_succ_next {s t : State} (h : step s = .next t) (n : Nat) : runSteps (n + 1) s = runSteps n t := by
  have h' : core.step s = .next t := h
  simp only [runSteps, Host.Core.run, h']
  rfl

/-- A run whose first step is refused is refused. -/
theorem runSteps_succ_refused {s : State} {r : Refusal} (h : step s = .refused r) (n : Nat) :
    runSteps (n + 1) s = .refused r := by
  have h' : core.step s = .refused r := h
  simp only [runSteps, Host.Core.run, h']
  rfl

end Sys2Proof.Machine
end

