-- ==== Sys2Proof/Tests/Slice0.lean ====
section
/-! SUPPORT. The model's own tests and the witnesses of the statements' hypotheses. Expected results are the spec's:
spec/95_test_vectors.md (T-*, S*, P*), the worked examples of the rules, and the bit patterns of 30_encoding.md. -/

namespace Sys2Proof.Tests

open Sys2Proof Sys2Proof.Machine

/-! ### Helpers -/

/-- `all15` of 95_test_vectors.md part 2: slot `k` holds a handler named `hk`. -/
def all15 : HandlerTable := Vector.ofFn fun k => some ⟨k.val⟩

/-- The block with the given parser state and table, after INIT. -/
def blk (rs : Option Byte) (pd : List Byte) (ht : HandlerTable) : State :=
  { State.reset with rs := rs, pd := pd, ht := ht }

/-- What a trace line shows: the parser state after, and the new results and events. -/
def after : Outcome → Option (Option Byte × List Byte × List Output)
  | .next t => some (t.rs, t.pd, t.outputs)
  | .fault _ => none
  | .refused _ => none

/-- One slot of the table after. -/
def slotAfter (k : Kind) : Outcome → Option (Option Handler)
  | .next t => some (t.slot k)
  | .fault _ => none
  | .refused _ => none

/-- The refusal, if any. -/
def refusal : Outcome → Option Refusal
  | .next _ => none
  | .fault _ => none
  | .refused r => some r

/-- `RX b`: one step that receives the byte. -/
def rx (b : Byte) (s : State) : Outcome := step (s.withFetchWord 8 b.toNat)

/-- `REG kind, handler`: one step of the port operation. -/
def reg (kind : BitVec 8) (h : Option Handler) (s : State) : Outcome := step (s.request (encode (.register kind h)))

/-- An operation with result 0 and no event. -/
def zero : Output := ⟨.zero, []⟩

/-! ### WellFormed: an ill-formed term for the one check, and terms at its edge -/

theorem test_wf_refuses_tag_too_wide : (Instr.register 9#8 (some ⟨2⟩)).wellFormed 1 = false := by decide
/-- R6: `HANDLER_W` is at least 1. -/
theorem test_wf_refuses_width_zero : (Instr.register 9#8 (some ⟨0⟩)).wellFormed 0 = false ∧
    (Instr.register 9#8 none).wellFormed 0 = false ∧ Instr.init.wellFormed 0 = false := by decide
theorem test_wf_accepts_widest_tag : (Instr.register 9#8 (some ⟨1⟩)).wellFormed 1 = true := by decide
theorem test_wf_accepts_invalid_kind : (Instr.register 255#8 none).wellFormed 1 = true := by decide

/-! ### Decoding: one word per row, bit by bit from the patterns of 30_encoding.md R50 to R52, R58 -/

theorem test_decode_data : decodeTableWord 8 0b01111111 = some (.data 0x7F#7) := by decide
theorem test_decode_noteOff : decodeTableWord 8 0b10000011 = some (.noteOff 3#4) := by decide
theorem test_decode_noteOn : decodeTableWord 8 0b10010000 = some (.noteOn 0#4) := by decide
theorem test_decode_polyAftertouch : decodeTableWord 8 0b10101111 = some (.polyAftertouch 15#4) := by decide
theorem test_decode_controlChange : decodeTableWord 8 0b10110010 = some (.controlChange 2#4) := by decide
theorem test_decode_programChange : decodeTableWord 8 0b11000101 = some (.programChange 5#4) := by decide
theorem test_decode_channelAftertouch : decodeTableWord 8 0b11011010 = some (.channelAftertouch 10#4) := by decide
theorem test_decode_pitchBend : decodeTableWord 8 0b11101111 = some (.pitchBend 15#4) := by decide
theorem test_decode_sysUnrecognised : decodeTableWord 8 0b11110111 = some (.sysUnrecognised 7#3) := by decide
theorem test_decode_rtClock : decodeTableWord 8 0b11111000 = some .rtClock := by decide
theorem test_decode_rtF9 : decodeTableWord 8 0b11111001 = some .rtF9 := by decide
theorem test_decode_rtStart : decodeTableWord 8 0b11111010 = some .rtStart := by decide
theorem test_decode_rtContinue : decodeTableWord 8 0b11111011 = some .rtContinue := by decide
theorem test_decode_rtStop : decodeTableWord 8 0b11111100 = some .rtStop := by decide
theorem test_decode_rtFD : decodeTableWord 8 0b11111101 = some .rtFD := by decide
theorem test_decode_rtActiveSense : decodeTableWord 8 0b11111110 = some .rtActiveSense := by decide
theorem test_decode_rtReset : decodeTableWord 8 0b11111111 = some .rtReset := by decide
theorem test_decode_init : decodeTableWord 2 0b00 = some .init := by decide
theorem test_decode_register :
    decode (.port ⟨0b01#2, 14#8, true, 5, 0xFF#8⟩) = .ok (.register 14#8 (some ⟨5⟩)) := by decide
theorem test_decode_receive : decode (.port ⟨0b10#2, 0xFF#8, true, 5, 0x90#8⟩) = .ok (.receive 0x90#8) := by decide
theorem test_decode_refuses_opsel_eleven : decodeTableWord 2 0b11 = none := by decide

/-! ### One step each -/

/-- T-DB row 4. -/
theorem test_data_second : after (rx 0x00#8 (blk (some 0x90#8) [0x00#8] all15)) =
    some (some 0x90#8, [], [⟨.one, [⟨.noteOn, ⟨9⟩, 0#8, 0#8, 0#8⟩]⟩]) := by decide

/-- T-DB row 10. -/
theorem test_data_only : after (rx 0x55#8 (blk (some 0xDA#8) [] all15)) =
    some (some 0xDA#8, [], [⟨.one, [⟨.channelAftertouch, ⟨13⟩, 0x0A#8, 0x55#8, 0#8⟩]⟩]) := by decide

/-- R80: `RX 83 => 0`, state `A(0x83, [])`. -/
theorem test_noteOff : after (rx 0x83#8 (blk none [] emptyTable)) = some (some 0x83#8, [], [zero]) := by decide

/-- T-CV: `A(0x90, [0x40])` and `RX 90`: the buffered byte is dropped. -/
theorem test_noteOn : after (rx 0x90#8 (blk (some 0x90#8) [0x40#8] all15)) =
    some (some 0x90#8, [], [zero]) := by decide

/-- R82: `RX AF => 0`. -/
theorem test_polyAftertouch : after (rx 0xAF#8 (blk none [] emptyTable)) = some (some 0xAF#8, [], [zero]) := by
  decide

/-- R83: `RX B0 => 0`. -/
theorem test_controlChange : after (rx 0xB0#8 (blk none [] emptyTable)) = some (some 0xB0#8, [], [zero]) := by decide

/-- T-CV: `A(0x90, [0x40])` and `RX C0`. -/
theorem test_programChange : after (rx 0xC0#8 (blk (some 0x90#8) [0x40#8] all15)) =
    some (some 0xC0#8, [], [zero]) := by decide

/-- R85: `RX D5 => 0`. -/
theorem test_channelAftertouch : after (rx 0xD5#8 (blk none [] emptyTable)) = some (some 0xD5#8, [], [zero]) := by
  decide

/-- R86: `RX E3 => 0`. -/
theorem test_pitchBend : after (rx 0xE3#8 (blk none [] emptyTable)) = some (some 0xE3#8, [], [zero]) := by decide

/-- R100: state `A(0x90, [0x40])`, `RX F0 => 0`, state `idle`. -/
theorem test_sysUnrecognised : after (rx 0xF0#8 (blk (some 0x90#8) [0x40#8] all15)) = some (none, [], [zero]) := by
  decide

/-- T-RT1: each byte from `A(0xB2, [0x07])` with `all15` selects its own slot and leaves the state. -/
theorem test_rtClock : after (rx 0xF8#8 (blk (some 0xB2#8) [0x07#8] all15)) =
    some (some 0xB2#8, [0x07#8], [⟨.one, [⟨.rtClock, ⟨0⟩, 0#8, 0#8, 0#8⟩]⟩]) := by decide
theorem test_rtF9 : after (rx 0xF9#8 (blk (some 0xB2#8) [0x07#8] all15)) =
    some (some 0xB2#8, [0x07#8], [⟨.one, [⟨.rtF9, ⟨1⟩, 0#8, 0#8, 0#8⟩]⟩]) := by decide
theorem test_rtStart : after (rx 0xFA#8 (blk (some 0xB2#8) [0x07#8] all15)) =
    some (some 0xB2#8, [0x07#8], [⟨.one, [⟨.rtStart, ⟨2⟩, 0#8, 0#8, 0#8⟩]⟩]) := by decide
theorem test_rtContinue : after (rx 0xFB#8 (blk (some 0xB2#8) [0x07#8] all15)) =
    some (some 0xB2#8, [0x07#8], [⟨.one, [⟨.rtContinue, ⟨3⟩, 0#8, 0#8, 0#8⟩]⟩]) := by decide
theorem test_rtStop : after (rx 0xFC#8 (blk (some 0xB2#8) [0x07#8] all15)) =
    some (some 0xB2#8, [0x07#8], [⟨.one, [⟨.rtStop, ⟨4⟩, 0#8, 0#8, 0#8⟩]⟩]) := by decide
theorem test_rtFD : after (rx 0xFD#8 (blk (some 0xB2#8) [0x07#8] all15)) =
    some (some 0xB2#8, [0x07#8], [⟨.one, [⟨.rtFD, ⟨5⟩, 0#8, 0#8, 0#8⟩]⟩]) := by decide
theorem test_rtActiveSense : after (rx 0xFE#8 (blk (some 0xB2#8) [0x07#8] all15)) =
    some (some 0xB2#8, [0x07#8], [⟨.one, [⟨.rtActiveSense, ⟨6⟩, 0#8, 0#8, 0#8⟩]⟩]) := by decide
theorem test_rtReset : after (rx 0xFF#8 (blk (some 0xB2#8) [0x07#8] all15)) =
    some (some 0xB2#8, [0x07#8], [⟨.one, [⟨.rtReset, ⟨7⟩, 0#8, 0#8, 0#8⟩]⟩]) := by decide

/-- T-RT2 run 8: a handler in slot 0 is not called for 0xF9. -/
theorem test_rtF9_not_slot_zero : after (rx 0xF9#8 (blk none [] (emptyTable.set 0 (some ⟨0⟩)))) =
    some (none, [], [zero]) := by decide

/-- T-INIT row 2: a repeated INIT drops the buffered byte, the running status and the registrations. -/
theorem test_init : after (step ((blk (some 0x90#8) [0x40#8] all15).withFetchWord 2 0b00)) =
    some (none, [], [zero]) := by decide
theorem test_init_clears_slot :
    slotAfter .noteOn (step ((blk (some 0x90#8) [0x40#8] all15).withFetchWord 2 0b00)) = some none := by decide

/-- T-REG rows 2 and 7. -/
theorem test_register_largest_kind : slotAfter .pitchBend (reg 14#8 (some ⟨5⟩) (blk none [] emptyTable)) =
    some (some ⟨5⟩) := by decide
theorem test_register_smallest_invalid_kind : after (reg 15#8 none (blk (some 0x90#8) [0x40#8] emptyTable)) =
    some (some 0x90#8, [0x40#8], [⟨.badEventHandler, []⟩]) := by decide

/-- R67's own example: `RX 40 => 1 NOTE_ON:hA(0, 40, 40)`, and S4. -/
theorem test_receive_completes : after (exec (.receive 0x40#8) (blk (some 0x90#8) [0x40#8] all15)) =
    some (some 0x90#8, [], [⟨.one, [⟨.noteOn, ⟨9⟩, 0#8, 0x40#8, 0x40#8⟩]⟩]) := by decide
theorem test_receive_data_first : after (exec (.receive 0x40#8) (blk none [] all15)) =
    some (none, [], [⟨.badChannelState, []⟩]) := by decide

/-- T-REF rows 1 to 3. -/
theorem test_refused_before_init : refusal (rx 0x90#8 { blk none [] emptyTable with initd := false }) =
    some .beforeInit := by decide
theorem test_refused_from_handler :
    refusal (step { blk none [] emptyTable with pending := [⟨.handler, .stream 0x90#8⟩] }) = some .fromHandler := by
  decide
theorem test_refused_opsel_eleven : refusal (step ((blk none [] emptyTable).withFetchWord 2 0b11)) =
    some .noSuchOperation := by decide

/-- R62 and the stream of S2. -/
theorem test_pseudo_expands : (PseudoOp.noteOn 0#4 0x40#7 0x40#7).expand = [0x90#8, 0x40#8, 0x40#8] := by decide

/-- R6: two states over any `H` with decidable equality can be compared, and an event carries a value of `H`. -/
theorem test_state_over_any_H (H : Type) [DecidableEq H] : Nonempty (DecidableEq (State H)) := ⟨inferInstance⟩
theorem test_event_over_H :
    (match execOver (fun h => h.tag == 9) (.data 0x40#7)
        (⟨some 0x90#8, [0x40#8], Vector.replicate 15 (some true), true, [], []⟩ : State Bool) with
      | .next t => t.outputs
      | .fault _ => []
      | .refused _ => []) = [⟨.one, [⟨.noteOn, true, 0#8, 0x40#8, 0x40#8⟩]⟩] := by decide

/-! ### Witnesses: for each statement with hypotheses, values that meet them all -/

/-- `A(0x90, [])`, `A(0x90, [0x40])`, `A(0xC0, [])` and `idle` with `all15`, and the same with the empty table. -/
def open9 : State := blk (some 0x90#8) [] all15
def half9 : State := blk (some 0x90#8) [0x40#8] all15
def openC : State := blk (some 0xC0#8) [] all15
def idle15 : State := blk none [] all15
def half9Empty : State := blk (some 0x90#8) [0x40#8] emptyTable
def openCEmpty : State := blk (some 0xC0#8) [] emptyTable

theorem inv_half9 : AtRest half9 := fun _ =>
  ⟨by unfold I1; decide, by unfold I2; decide, by unfold I3; decide, by unfold I4; decide⟩

theorem witness_StepRunsDecodedRequest :
    ({ half9 with pending := [⟨.host, .stream 0xFF#8⟩] } : State).pending = ⟨.host, .stream 0xFF#8⟩ :: [] ∧
      decode (.stream 0xFF#8) = .ok .rtReset := by decide
theorem witness_PlacedTableWordRunsNext :
    decodeTableWord 8 0xFF = some .rtReset ∧ decodeTableWord 2 2 = some (.receive 0#8) := by decide
theorem witness_NothingRequestedChangesNothing : half9.pending = [] := by decide
theorem witness_HandlerRequestsAreRefused :
    ({ half9 with pending := [⟨.handler, .stream 0xFF#8⟩] } : State).pending = ⟨.handler, .stream 0xFF#8⟩ :: [] := by
  decide
theorem witness_OpselElevenIsRefused :
    (half9.request (.port ⟨0b11#2, 0#8, false, 0, 0#8⟩)).pending = [⟨.host, .port ⟨0b11#2, 0#8, false, 0, 0#8⟩⟩] ∧
      decode (.port ⟨0b11#2, 0#8, false, 0, 0#8⟩) = .error .opselWithoutOperation := by decide
theorem witness_RunPerformsRequestsInOrder :
    (half9.request (.stream 0x40#8)).pending = [WireWord.stream 0x40#8].map (fun w => ⟨.host, w⟩) ++ [] ∧
      [WireWord.stream 0x40#8].map decode = [Instr.data 0x40#7].map .ok := by decide
theorem witness_TopBitTellsStatusFromData : (0x7F#8).msb = false ∧ (0x80#8).msb = true := by decide
/-- The boundary values of the four ranges. -/
theorem witness_FourRangesClassifyEveryByte :
    byteClass 0x7F#8 = .data 0x7F#8 ∧ byteClass 0x80#8 = .status 0x80#8 ∧ byteClass 0xEF#8 = .status 0xEF#8 ∧
      byteClass 0xF0#8 = .unrecognised ∧ byteClass 0xF7#8 = .unrecognised ∧ byteClass 0xF8#8 = .realTime := by decide
theorem witness_KindNumbering :
    Kind.ofCode 14#8 = some .pitchBend ∧ Kind.ofCode 15#8 = none ∧ kindOfRealTime 0xFF#8 = some .rtReset ∧
      kindOfStatus 0x80#8 = some .noteOff ∧ kindOfStatus 0xEF#8 = some .pitchBend := by decide
theorem witness_RealTimeBytesDispatchAndChangeNothing :
    half9.initd = true ∧ half9.slot .rtReset = some ⟨7⟩ ∧ half9Empty.initd = true ∧
      half9Empty.slot .rtReset = none := by decide
theorem witness_RealTimeBytesAreTransparent :
    half9.initd = true ∧ AtRest half9 ∧ isStatusByte 0x80#8 = true ∧ isUnrecognisedByte 0xF7#8 = true :=
  ⟨by decide, inv_half9, by decide, by decide⟩
theorem witness_StatusByteOpensMessage :
    half9.initd = true ∧ 0x80 ≤ (0x80#8).toNat ∧ (0x80#8).toNat ≤ 0xEF ∧ 0x80 ≤ (0xEF#8).toNat ∧
      (0xEF#8).toNat ≤ 0xEF := by decide
theorem witness_EachStatusKindOpensItsMessage : half9.initd = true := by decide
theorem witness_DataByteWithoutRunningStatus :
    idle15.initd = true ∧ idle15.rs = none ∧ isStatusByte 0xEF#8 = true ∧ isRealTimeByte 0xF8#8 = true := by decide
theorem witness_BadChannelStateExactlyThen :
    ∃ t, exec (.data 0x40#7) idle15 = .next t ∧ t.outputs = idle15.outputs ++ [⟨.badChannelState, []⟩] :=
  ⟨_, rfl, rfl⟩
theorem witness_FirstOfTwoDataBytesIsBuffered :
    open9.initd = true ∧ isStatusByte 0x90#8 = true ∧ open9.rs = some 0x90#8 ∧ expected 0x90#8 = 2 ∧
      open9.pd = [] ∧ opClass .rtReset = .realTime ∧ opClass (.sysUnrecognised 0#3) = .unrecognised := by decide
/-- The operations the two clauses speak of complete in the state with the byte buffered. -/
theorem witness_FirstOfTwoDataBytesIsBuffered_next :
    (after (exec .rtReset half9)).isSome = true ∧ (after (exec (.register 9#8 none) half9)).isSome = true ∧
      (after (exec .init half9)).isSome = true ∧ (after (exec (.noteOn 0#4) half9)).isSome = true := by decide
theorem witness_SecondDataByteCompletes :
    half9.initd = true ∧ half9.rs = some 0x90#8 ∧ kindOfStatus 0x90#8 = some .noteOn ∧ expected 0x90#8 = 2 ∧
      half9.pd = [0x40#8] ∧ half9.slot .noteOn = some ⟨9⟩ ∧ half9Empty.slot .noteOn = none ∧
      half9Empty.rs = some 0x90#8 ∧ half9Empty.pd = [0x40#8] := by decide
theorem witness_OnlyDataByteCompletes :
    openC.initd = true ∧ openC.rs = some 0xC0#8 ∧ kindOfStatus 0xC0#8 = some .programChange ∧
      expected 0xC0#8 = 1 ∧ openC.pd = [] ∧ openC.slot .programChange = some ⟨12⟩ ∧
      openCEmpty.slot .programChange = none := by decide
theorem witness_EachVoiceKindCompletes :
    half9.initd = true ∧ half9.rs = some (0x9#4 ++ 0x0#4) ∧ half9.pd = [dataByte 0x40#7] ∧
      openC.rs = some (0xC#4 ++ 0x0#4) ∧ openC.pd = [] := by decide
theorem witness_RunningStatusIsReused :
    open9.initd = true ∧ open9.rs = some 0x90#8 ∧ kindOfStatus 0x90#8 = some .noteOn ∧ open9.pd = [] ∧
      expected 0x90#8 = 2 ∧ openC.rs = some 0xC0#8 ∧ kindOfStatus 0xC0#8 = some .programChange ∧
      expected 0xC0#8 = 1 := by decide
theorem witness_UnrecognisedByteClearsParser : half9.initd = true := by decide
theorem witness_NothingAssemblesUntilAStatusByte :
    idle15.initd = true ∧ idle15.rs = none ∧ idle15.pd = [] ∧
      ∀ b ∈ [0xF0#8, 0x7E#8, 0xFF#8, 0xF7#8], isStatusByte b = false := by decide
theorem witness_RegisterWritesOneSlot :
    half9.initd = true ∧ 15 ≤ (15#8).toNat ∧ (14#8).toNat < 15 ∧
      ({ half9 with pending := [⟨.handler, .port ⟨0b01#2, 9#8, true, 1, 0#8⟩⟩] } : State).pending =
        ⟨.handler, .port ⟨0b01#2, 9#8, true, 1, 0#8⟩⟩ :: [] := by decide
theorem witness_BadEventHandlerExactlyThen :
    ∃ t, exec (.register 15#8 none) half9 = .next t ∧ t.outputs = half9.outputs ++ [⟨.badEventHandler, []⟩] :=
  ⟨_, rfl, rfl⟩
theorem witness_RegisterInsideMessageTakesEffect :
    open9.initd = true ∧ open9.rs = some 0x90#8 ∧ kindOfStatus 0x90#8 = some .noteOn ∧ expected 0x90#8 = 2 ∧
      open9.pd = [] := by decide
/-- The rows of the table: each has a state and a byte. -/
theorem witness_ReceiveFollowsTransitionTable :
    half9.initd = true ∧ kindOfRealTime 0xF8#8 = some .rtClock ∧ isStatusByte 0x80#8 = true ∧
      isUnrecognisedByte 0xF0#8 = true ∧ isDataByte 0x7F#8 = true ∧ idle15.rs = none ∧
      openC.rs = some 0xC0#8 ∧ kindOfStatus 0xC0#8 = some .programChange ∧ expected 0xC0#8 = 1 ∧ openC.pd = [] ∧
      open9.rs = some 0x90#8 ∧ kindOfStatus 0x90#8 = some .noteOn ∧ expected 0x90#8 = 2 ∧ open9.pd = [] ∧
      half9.pd = [0x40#8] := by decide
theorem witness_WholeMessagesDispatchOnce : half9.initd = true := by decide
/-- Every row of the matrix is met by an operation that completes, REGISTER at 14 and at 15. -/
theorem witness_WriteMatrix :
    (after (exec .init half9)).isSome = true ∧ (after (exec (.register 14#8 none) half9)).isSome = true ∧
      (after (exec (.register 15#8 none) half9)).isSome = true ∧ (after (exec .rtReset half9)).isSome = true ∧
      (after (exec (.noteOn 0#4) half9)).isSome = true ∧ (after (exec (.sysUnrecognised 0#3) half9)).isSome = true ∧
      (after (exec (.data 0#7) idle15)).isSome = true ∧ (after (exec (.data 0#7) open9)).isSome = true ∧
      (after (exec (.data 0#7) half9)).isSome = true := by decide
theorem witness_PossibleResults :
    (after (exec .rtClock half9)).isSome = true ∧ Result.one ∈ (opClass .rtClock).results ∧
      ∀ r ∈ (opClass (.data 0#7)).results, r = .zero ∨ r = .one ∨ r = .badChannelState := by decide
theorem witness_ErrorsChangeNothing :
    (∃ t, exec (.data 0x40#7) idle15 = .next t ∧ t.outputs = idle15.outputs ++ [⟨.badChannelState, []⟩]) ∧
      Result.badChannelState.toInt < 0 :=
  ⟨⟨_, rfl, rfl⟩, by decide⟩
theorem witness_OutputsStayConsistent :
    (after (step (half9.request (.stream 0xFF#8)))).isSome = true ∧ half9.outputs = [] ∧
      (after (exec .rtReset half9)).isSome = true ∧ (after (exec .init half9)).isSome = true := by decide
theorem witness_OnlyInitBeforeInit :
    ({ half9 with initd := false } : State).initd = false ∧ Instr.rtClock ≠ .init ∧
      (after (exec .rtClock half9)).isSome = true := by decide
theorem witness_StepKeepsInvariants :
    AtRest (half9.request (.stream 0x40#8)) ∧ (after (step (half9.request (.stream 0x40#8)))).isSome = true :=
  ⟨inv_half9, by decide⟩
/-- A licensed list that begins with INIT, and one that does not begin with it on a block not initialised. -/
theorem witness_LicensedRunsComplete :
    AtRest { half9 with initd := false } ∧
      Licensed false [⟨.host, encode .init⟩, ⟨.host, .stream 0x40#8⟩] ∧
      ¬ Licensed false [⟨.host, .stream 0x40#8⟩] := by
  refine ⟨fun h => (by cases h), ⟨rfl, .init, rfl, .inr rfl, rfl, .data 0x40#7, by decide, .inl rfl, trivial⟩, ?_⟩
  rintro ⟨-, i, hd, hu, -⟩
  rcases hu with hu | rfl
  · cases hu
  · revert hd
    decide
theorem witness_PortsAreNotState : SameBlock half9 { half9 with outputs := [zero] } := ⟨rfl, rfl, rfl, rfl⟩
theorem witness_HandlersDoNotSteerParser :
    half9.rs = half9Empty.rs ∧ half9.pd = half9Empty.pd ∧ half9.initd = half9Empty.initd ∧
      half9.ht ≠ half9Empty.ht := by decide
theorem witness_RepeatingChangesNothingMore :
    (after (exec (.noteOn 0#4) half9)).isSome = true ∧ opClass (.noteOn 0#4) = .status 0x90#8 ∧
      (after (exec .rtReset half9)).isSome = true ∧ opClass .rtReset = .realTime := by decide
/-- Four-bit tags hold `h0` to `h14`, three-bit tags do not. -/
def junk4 : Regs 4 := ⟨false, 0xFF#8, 0#2, 0xFF#8, 0xFF#8, Vector.replicate 15 false, Vector.replicate 15 9#4⟩
theorem test_register_form : ((half9.toRegs junk4).map fun r => (r.rsv, r.rsb, r.cnt, r.pd0, r.pd1)) =
    some (true, 0x90#8, 1#2, 0x40#8, 0xFF#8) ∧ half9.handlersFit 3 = false := by decide
theorem witness_MeaninglessCellsDoNotMatter :
    half9.pd.length ≤ 2 ∧ half9.handlersFit 4 = true ∧ (half9.toRegs junk4).isSome = true ∧ junk4.cnt ≠ 3#2 := by
  decide
theorem witness_StepKeepsRegisterForm :
    half9.initd = true ∧ AtRest half9 ∧ (half9.request (.stream 0x40#8)).handlersFit 4 = true ∧
      (∀ r ∈ (half9.request (.stream 0x40#8)).pending, r.word.fits 4 = true) ∧
      (after (step (half9.request (.stream 0x40#8)))).isSome = true :=
  ⟨by decide, inv_half9, by decide, by decide, by decide⟩
theorem witness_StreamsAreIndependent :
    [half9, half9.request (.stream 0x40#8)][1]? = some (half9.request (.stream 0x40#8)) ∧
      (after (step (half9.request (.stream 0x40#8)))).isSome = true := by decide

end Sys2Proof.Tests
end

section
/-! What one operation can do to the block, once for every instruction: the inversion lemma of `exec`, over the rows of
10_state.md R29. -/

namespace Sys2Proof.Machine

/-! ### RECEIVE on each range of bytes (40_host_operations_and_registry.md R67) -/

section Receive
variable {H : Type}

/-- R67's arm 3, which compares lengths, and the cases of 43_data_bytes.md R87 are one meaning. -/
theorem whenInit_receiveAppend (d : Byte) (s : State H) : whenInit s (receiveAppend d s) = receiveData d s := by
  unfold receiveData receiveAppend
  congr 1
  rcases s.rs with _ | b
  · rfl
  rcases hk : kindOfStatus b with _ | k
  · simp [hk]
  rcases expected_cases b with he | he <;> rcases hp : s.pd with _ | ⟨p, _ | ⟨q, ps⟩⟩ <;> simp [hk, he]

theorem isRealTimeByte_of_kind {b : Byte} {k : Kind} (hk : kindOfRealTime b = some k) : isRealTimeByte b = true := by
  rw [← kindOfRealTime_isSome, hk, Option.isSome_some]

theorem isRealTimeByte_of_no_kind {b : Byte} (hk : kindOfRealTime b = none) : isRealTimeByte b = false := by
  rw [← kindOfRealTime_isSome, hk, Option.isSome_none]

theorem execReceive_realTime {b : Byte} {k : Kind} (hk : kindOfRealTime b = some k) (s : State H) :
    execReceive b s = receiveRealTime k s := by
  simp only [execReceive, hk, receiveRealTime]

theorem execReceive_status {b : Byte} (hk : kindOfRealTime b = none) (hb : isStatusByte b = true) (s : State H) :
    execReceive b s = receiveStatus b s := by
  simp only [execReceive, hk, hb, if_true, receiveStatus]

theorem execReceive_data {b : Byte} (hk : kindOfRealTime b = none) (hs : isStatusByte b = false)
    (hb : isDataByte b = true) (s : State H) : execReceive b s = receiveData b s := by
  simp only [execReceive, hk, hs, hb, Bool.false_eq_true, if_true, if_false, whenInit_receiveAppend]

theorem execReceive_unrecognised {b : Byte} (hk : kindOfRealTime b = none) (hs : isStatusByte b = false)
    (hb : isDataByte b = false) (s : State H) : execReceive b s = receiveUnrecognised s := by
  simp only [execReceive, hk, hs, hb, Bool.false_eq_true, if_false, receiveUnrecognised]

end Receive

/-! ### What an operation of each class leaves -/

/-- Every way an operation of a class can complete, from `s` in `t`: the rows of R29, REGISTER's and a data byte's by
what they find. -/
inductive ClassStep : OpClass → State → State → Prop where
  | init (s : State) :
      ClassStep .init s { State.reset with pending := s.pending, outputs := s.outputs ++ [⟨.zero, []⟩] }
  | badKind {s : State} (hi : s.initd = true) {kind : BitVec 8} (hk : Kind.ofCode kind = none) (h : Option Handler) :
      ClassStep (.register kind h) s (s.answer .badEventHandler [])
  | registered {s : State} (hi : s.initd = true) {kind : BitVec 8} {k : Kind} (hk : Kind.ofCode kind = some k)
      (h : Option Handler) : ClassStep (.register kind h) s ((s.setSlot k h).answer .zero [])
  | realTime {s : State} (hi : s.initd = true) (k : Kind) :
      ClassStep .realTime s { s with outputs := s.outputs ++ [dispatched s k 0#8 0#8 0#8] }
  | status {s : State} (hi : s.initd = true) (b : Byte) :
      ClassStep (.status b) s { s with rs := some b, pd := [], outputs := s.outputs ++ [⟨.zero, []⟩] }
  | data {s t : State} (hi : s.initd = true) {d : Byte} (hd : DataStep d s t) : ClassStep (.data d) s t
  | unrecognised {s : State} (hi : s.initd = true) :
      ClassStep .unrecognised s { s with rs := none, pd := [], outputs := s.outputs ++ [⟨.zero, []⟩] }

section Inversion
variable {s t : State}

theorem receiveRealTime_next {k : Kind} (h : receiveRealTime k s = .next t) : ClassStep .realTime s t := by
  have hi := (whenInit_next h).1
  rw [receiveRealTime_init hi] at h
  cases h
  exact .realTime hi k

theorem receiveStatus_next {b : Byte} (h : receiveStatus b s = .next t) : ClassStep (.status b) s t := by
  have hi := (whenInit_next h).1
  rw [receiveStatus_init hi] at h
  cases h
  exact .status hi b

theorem receiveUnrecognised_next (h : receiveUnrecognised s = .next t) : ClassStep .unrecognised s t := by
  have hi := (whenInit_next h).1
  rw [receiveUnrecognised_init hi] at h
  cases h
  exact .unrecognised hi

theorem receiveData_next_class {d : Byte} (h : receiveData d s = .next t) : ClassStep (.data d) s t :=
  have ⟨hi, hd⟩ := receiveData_next h
  .data hi hd

theorem execInit_next (h : execInit s = .next t) : ClassStep .init s t := by
  cases h
  exact .init s

theorem execRegister_next_class {kind : BitVec 8} {o : Option Handler} (h : execRegister kind o s = .next t) :
    ClassStep (.register kind o) s t := by
  obtain ⟨hi, ⟨hk, rfl⟩ | ⟨k, hk, rfl⟩⟩ := execRegister_next h
  · exact .badKind hi hk o
  · exact .registered hi hk o

theorem execReceive_next {b : Byte} (h : execReceive b s = .next t) : ClassStep (byteClass b) s t := by
  rcases hk : kindOfRealTime b with _ | k
  · have hr := isRealTimeByte_of_no_kind hk
    cases hs : isStatusByte b
    · cases hd : isDataByte b
      · rw [execReceive_unrecognised hk hs hd] at h
        simpa [byteClass, hr, hs, hd] using receiveUnrecognised_next h
      · rw [execReceive_data hk hs hd] at h
        simpa [byteClass, hr, hs, hd] using receiveData_next_class h
    · rw [execReceive_status hk hs] at h
      simpa [byteClass, hr, hs] using receiveStatus_next h
  · rw [execReceive_realTime hk] at h
    simpa [byteClass, isRealTimeByte_of_kind hk] using receiveRealTime_next h

/-- If an instruction completes, it does so in one of the ways of its class. -/
theorem exec_next {i : Instr} (h : exec i s = .next t) : ClassStep (opClass i) s t := by
  cases i with
  | data d => exact receiveData_next_class h
  | noteOff c | noteOn c | polyAftertouch c | controlChange c | programChange c | channelAftertouch c | pitchBend c =>
    exact receiveStatus_next h
  | sysUnrecognised x => exact receiveUnrecognised_next h
  | rtClock | rtF9 | rtStart | rtContinue | rtStop | rtFD | rtActiveSense | rtReset => exact receiveRealTime_next h
  | init => exact execInit_next h
  | register kind o => exact execRegister_next_class h
  | receive b => exact execReceive_next h

end Inversion

/-! ### Results and events (00_scope.md R10) -/

theorem dispatched_consistent (s : State) (k : Kind) (ch d1 d2 : Byte) : (dispatched s k ch d1 d2).Consistent := by
  unfold dispatched
  cases s.slot k <;> rfl

/-- A consistent output with a non-negative result has that many events. -/
theorem Output.Consistent.events_length {o : Output} (h : o.Consistent) (hr : 0 ≤ o.result.toInt) :
    (o.events.length : Int) = o.result.toInt := by
  obtain ⟨r, es⟩ := o
  cases r with
  | zero =>
    have hes : es = [] := h
    simp [hes, Result.toInt, Config.codeOk]
  | one =>
    have hlen : es.length = 1 := h
    simp [hlen, Result.toInt]
  | badEventHandler => exact absurd hr (show ¬ 0 ≤ Result.badEventHandler.toInt by decide)
  | badChannelState => exact absurd hr (show ¬ 0 ≤ Result.badChannelState.toInt by decide)

/-- A consistent output with an error has no event. -/
theorem Output.Consistent.events_nil {o : Output} (h : o.Consistent) (hr : o.result.toInt < 0) : o.events = [] := by
  obtain ⟨r, es⟩ := o
  cases r with
  | zero => exact absurd hr (show ¬ Result.zero.toInt < 0 by decide)
  | one => exact absurd hr (show ¬ Result.one.toInt < 0 by decide)
  | badEventHandler | badChannelState => exact h

/-- A data byte adds one consistent output. -/
theorem DataStep.output {d : Byte} {s t : State} (h : DataStep d s t) :
    ∃ o, t.outputs = s.outputs ++ [o] ∧ o.Consistent := by
  cases h with
  | noStatus _ ht | first _ _ _ _ _ _ ht => subst ht; exact ⟨_, rfl, rfl⟩
  | second _ _ _ _ _ _ _ ht | only _ _ _ _ _ _ ht => subst ht; exact ⟨_, rfl, dispatched_consistent ..⟩

/-- An operation that completes adds one consistent output, which has no event when it is one of INIT or REGISTER. -/
theorem ClassStep.output {c : OpClass} {s t : State} (h : ClassStep c s t) :
    ∃ o, t.outputs = s.outputs ++ [o] ∧ o.Consistent ∧ (c = .init ∨ (∃ k h, c = .register k h) → o.events = []) := by
  cases h with
  | init | badKind | registered | status | unrecognised => exact ⟨_, rfl, rfl, fun _ => rfl⟩
  | realTime _ k => exact ⟨_, rfl, dispatched_consistent .., by simp⟩
  | data _ hd =>
    obtain ⟨o, ho, hc⟩ := hd.output
    exact ⟨o, ho, hc, by simp⟩

end Sys2Proof.Machine
end

section
/-! The statements of 00_scope.md. -/

namespace Sys2Proof.Machine

/-- A step that completes does nothing, or adds one consistent output. -/
theorem step_output {s t : State} (h : step s = .next t) :
    t = s ∨ ∃ o, t.outputs = s.outputs ++ [o] ∧ o.Consistent := by
  obtain ⟨-, rfl⟩ | ⟨i, w, rest, -, -, hx⟩ := step_next h
  · exact .inl rfl
  · obtain ⟨o, ho, hc, -⟩ := (exec_next hx).output
    exact .inr ⟨o, ho, hc⟩

/-- Settles O40: a step adds at most one output, and the one output an operation adds is consistent, by the inversion
lemma of `exec`. -/
theorem outputsStayConsistent : Obligations.OutputsStayConsistent := by
  refine ⟨fun s t h hs => ?_, fun i s t o h ho => ?_⟩
  · obtain rfl | ⟨o, ho, hc⟩ := step_output h
    · exact ⟨hs, .inl rfl⟩
    · refine ⟨fun p hp => ?_, .inr ⟨o, ho⟩⟩
      rw [ho, List.mem_append, List.mem_singleton] at hp
      obtain hp | rfl := hp
      · exact hs p hp
      · exact hc
  · obtain ⟨o', ho', hc, hn⟩ := (exec_next h).output
    obtain rfl : o' = o := by simpa [ho'] using ho
    exact ⟨hc.events_length, hc.events_nil, hn⟩

end Sys2Proof.Machine
end

section
/-! What the operands of an instruction's class are (30_encoding.md R39, R44, R47, R58), and the frame of an operation of
each class. -/

namespace Sys2Proof.Machine

/-! ### Operands of a class -/

/-- The class of a received byte is one of four, by its range (R39). -/
theorem byteClass_cases (b : Byte) :
    byteClass b = .realTime ∨ (isStatusByte b = true ∧ byteClass b = .status b) ∨
      (isDataByte b = true ∧ byteClass b = .data b) ∨ byteClass b = .unrecognised := by
  unfold byteClass
  split
  · exact .inl rfl
  split
  · exact .inr (.inl ⟨‹_›, rfl⟩)
  split
  · exact .inr (.inr (.inl ⟨‹_›, rfl⟩))
  · exact .inr (.inr (.inr rfl))

theorem byteClass_ne_register (b : Byte) (kind : BitVec 8) (h : Option Handler) : byteClass b ≠ .register kind h := by
  intro hc
  obtain hb | ⟨-, hb⟩ | ⟨-, hb⟩ | hb := byteClass_cases b <;> rw [hb] at hc <;> cases hc

/-- The nibbles of the seven channel-voice kinds make channel-voice status bytes (R50, R51). -/
theorem isStatusByte_statusByte : ∀ n c : BitVec 4, 0x8#4 ≤ n → n ≤ 0xE#4 → isStatusByte (statusByte n c) = true := by
  decide

theorem isStatusByte_iff {b : Byte} : isStatusByte b = true ↔ 0x80#8 ≤ b ∧ b ≤ 0xEF#8 :=
  Bool.and_eq_true_iff.trans (and_congr decide_eq_true_iff decide_eq_true_iff)

/-- A kind code from 15 on names no kind, and no other code names none (20_memory.md R31). -/
theorem Kind.ofCode_eq_none_iff : ∀ kind : BitVec 8, Kind.ofCode kind = none ↔ 15 ≤ kind.toNat := by decide

/-- A kind code names a kind exactly when it is that kind's code. -/
theorem Kind.ofCode_eq_some_iff {kind : BitVec 8} {k : Kind} : Kind.ofCode kind = some k ↔ k.code = kind := by
  refine ⟨fun h => ?_, fun h => by rw [← h, Kind.ofCode_code]⟩
  rw [Kind.code, Kind.index_of_ofIndex h, BitVec.ofNat_toNat, BitVec.setWidth_eq]

/-- Only a channel-voice status byte is received as one. -/
theorem isStatusByte_of_opClass {i : Instr} {b : Byte} (h : opClass i = .status b) : isStatusByte b = true := by
  cases i with
  | noteOff c | noteOn c | polyAftertouch c | controlChange c | programChange c | channelAftertouch c | pitchBend c =>
    cases h
    exact isStatusByte_statusByte _ c (by decide) (by decide)
  | receive b' =>
    obtain hb | ⟨hs, hb⟩ | ⟨-, hb⟩ | hb := byteClass_cases b' <;> rw [opClass, hb] at h <;> cases h
    exact hs
  | data d | sysUnrecognised x | rtClock | rtF9 | rtStart | rtContinue | rtStop | rtFD | rtActiveSense | rtReset | init
  | register kind o => cases h

/-- Only a byte below the threshold is received as a data byte. -/
theorem lt_threshold_of_opClass {i : Instr} {d : Byte} (h : opClass i = .data d) : d < 0x80#8 := by
  cases i with
  | data d' =>
    cases h
    exact (dataByte_isData d').2
  | receive b =>
    obtain hb | ⟨-, hb⟩ | ⟨hd, hb⟩ | hb := byteClass_cases b <;> rw [opClass, hb] at h <;> cases h
    exact of_decide_eq_true hd
  | noteOff c | noteOn c | polyAftertouch c | controlChange c | programChange c | channelAftertouch c | pitchBend c
  | sysUnrecognised x | rtClock | rtF9 | rtStart | rtContinue | rtStop | rtFD | rtActiveSense | rtReset | init
  | register kind o => cases h

/-- A byte of the stream is of the class of its range. -/
theorem opClass_decodeByte : ∀ b : Byte, opClass (decodeByte b) = byteClass b := by decide

/-- A handler registered from a word that fits `W`-bit wires fits a tag of `W` bits. -/
theorem registered_handler_fits {W : Nat} {w : WireWord} {i : Instr} {kind : BitVec 8} {h : Option Handler}
    (hw : w.fits W = true) (hd : decode w = .ok i) (hc : opClass i = .register kind h) :
    h.all (Handler.fits W) = true := by
  cases w with
  | stream b =>
    cases hd
    rw [opClass_decodeByte] at hc
    exact absurd hc (byteClass_ne_register b kind h)
  | port p =>
    have htag : p.tag < 2 ^ W := by
      simp only [WireWord.fits, Bool.and_eq_true, decide_eq_true_eq] at hw
      exact hw.2
    simp only [decode, decodePort] at hd
    split at hd
    · cases hd
      cases hc
    split at hd
    · cases hd
      cases hc
      unfold PortWord.handler
      split <;> simp [Handler.fits, htag]
    split at hd
    · cases hd
      exact absurd hc (byteClass_ne_register p.byte kind h)
    · cases hd

/-! ### The frame of an operation -/

section Frame
variable {s t : State}

/-- A data byte leaves the input port, the running status and the table alone. -/
theorem DataStep.frame {d : Byte} (h : DataStep d s t) : t.pending = s.pending ∧ t.rs = s.rs ∧ t.ht = s.ht := by
  cases h with
  | noStatus _ ht | first _ _ _ _ _ _ ht | second _ _ _ _ _ _ _ ht | only _ _ _ _ _ _ ht =>
    subst ht
    exact ⟨rfl, rfl, rfl⟩

/-- No operation writes the input port (log 2). -/
theorem ClassStep.pending {c : OpClass} (h : ClassStep c s t) : t.pending = s.pending := by
  cases h with
  | init | badKind | registered | realTime | status | unrecognised => rfl
  | data _ hd => exact hd.frame.1

end Frame

end Sys2Proof.Machine
end

section
/-! The statements of 10_state.md. -/

namespace Sys2Proof.Machine

/-! ### The invariants at rest (R20) -/

section Rest
variable {s t : State}

/-- The invariants see the parser alone. -/
theorem AtRest.of_same_parser (hs : AtRest s) (hi : s.initd = true) (hrs : t.rs = s.rs) (hpd : t.pd = s.pd) :
    AtRest t := by
  obtain ⟨h1, h2, h3, h4⟩ := hs hi
  intro _
  simp only [I1, I2, I3, I4, hrs, hpd]
  exact ⟨h1, h2, h3, h4⟩

/-- With an empty buffer only I1 is left to ask for: every message has a data byte. -/
theorem atRest_of_pd_nil (h1 : I1 t) (hp : t.pd = []) : AtRest t := by
  have h3 : I3 t := fun b _ => by
    rw [hp, List.length_nil]
    obtain he | he := expected_cases b <;> omega
  exact fun _ => ⟨h1, fun _ => hp, h3, by simp [I4, hp]⟩

/-- A data byte keeps the invariants: it is buffered only as the first of two. -/
theorem DataStep.atRest {d : Byte} (h : DataStep d s t) (hd : d < 0x80#8) (hs : AtRest s) (hi : s.initd = true) :
    AtRest t := by
  obtain ⟨h1, -⟩ := hs hi
  cases h with
  | noStatus _ ht =>
    subst ht
    exact hs.of_same_parser hi rfl rfl
  | first b _ hb _ he _ ht =>
    subst ht
    refine fun _ => ⟨h1, fun hn => ?_, fun b' hb' => ?_, fun d' hd' => ?_⟩
    · exact absurd (hb.symm.trans hn) (Option.some_ne_none b)
    · obtain rfl : b = b' := Option.some.inj (hb.symm.trans hb')
      exact he.ge
    · obtain rfl := List.mem_singleton.mp hd'
      exact hd
  | second _ _ _ _ _ _ _ ht | only _ _ _ _ _ _ ht =>
    subst ht
    exact atRest_of_pd_nil h1 rfl

/-- An instruction that completes keeps the invariants, by the ways of its class. -/
theorem exec_atRest {i : Instr} (h : exec i s = .next t) (hs : AtRest s) : AtRest t := by
  have hstatus : ∀ b, opClass i = .status b → isStatusByte b = true := fun b => isStatusByte_of_opClass
  have hdata : ∀ d, opClass i = .data d → d < 0x80#8 := fun d => lt_threshold_of_opClass
  have hc := exec_next h
  generalize opClass i = c at hc hstatus hdata
  cases hc with
  | init | unrecognised => exact atRest_of_pd_nil (fun _ hb => nomatch hb) rfl
  | badKind hi | registered hi | realTime hi => exact hs.of_same_parser hi rfl rfl
  | status _ b =>
    refine atRest_of_pd_nil (fun b' hb' => ?_) rfl
    obtain rfl : b = b' := Option.some.inj hb'
    exact isStatusByte_iff.mp (hstatus b rfl)
  | data hi hd => exact hd.atRest (hdata _ rfl) hs hi

/-- At rest after INIT at most one byte is buffered. -/
theorem AtRest.pd_length_le (hs : AtRest s) (hi : s.initd = true) : s.pd.length ≤ 1 := by
  obtain ⟨-, h2, h3, -⟩ := hs hi
  rcases hrs : s.rs with _ | b
  · rw [h2 hrs]
    exact Nat.zero_le 1
  · have hle := h3 b hrs
    obtain he | he := expected_cases b <;> omega

end Rest

/-- Settles O42: an idle step changes nothing, and any other is an operation, which keeps the invariants. -/
theorem stepKeepsInvariants : Obligations.StepKeepsInvariants := by
  intro s t hs h
  obtain ⟨-, rfl⟩ | ⟨i, w, rest, -, -, hx⟩ := step_next h
  · exact hs
  · exact exec_atRest hx hs

/-! ### The write matrix (R29) -/

/-- What a data byte writes of the buffer: nothing without a running status, else it completes the message or is
appended (R29). -/
theorem DataStep.pd {d : Byte} {s t : State} (h : DataStep d s t) :
    (s.rs = none → t.pd = s.pd) ∧
      ∀ b, s.rs = some b →
        (s.pd.length + 1 = expected b → t.pd = []) ∧ (s.pd.length + 1 ≠ expected b → t.pd = s.pd ++ [d]) := by
  cases h with
  | noStatus hn ht => simp [ht, hn]
  | first b _ hb _ he hp ht => simp [ht, hb, he, hp]
  | second b _ _ hb _ he hp ht | only b _ hb _ he hp ht => simp [ht, hb, he, hp]

/-- Settles O37: the inversion lemma of `exec` gives each row of the matrix. -/
theorem writeMatrix : Obligations.WriteMatrix := by
  intro i s t h
  have hc := exec_next h
  obtain ⟨o, ho, -⟩ := hc.output
  refine ⟨hc.pending, ⟨o, ho⟩, ?_⟩
  generalize opClass i = c at hc ⊢
  cases hc with
  | init => exact ⟨rfl, rfl, fun k => emptyTable_getElem _ _⟩
  | badKind _ hk =>
    refine ⟨rfl, rfl, fun _ => rfl, fun k hkc => ?_, fun _ _ => rfl⟩
    exact absurd (hk.symm.trans (Kind.ofCode_eq_some_iff.mpr hkc)) (Option.some_ne_none k).symm
  | registered _ hk o =>
    refine ⟨rfl, rfl, fun hle => ?_, fun k' hkc => ?_, fun k' hne => ?_⟩
    · exact absurd (hk.symm.trans ((Kind.ofCode_eq_none_iff _).mpr hle)) (Option.some_ne_none _)
    · obtain rfl := Option.some.inj (hk.symm.trans (Kind.ofCode_eq_some_iff.mpr hkc))
      exact State.slot_setSlot_same s _ o
    · exact State.slot_setSlot_other s o fun he => hne (Kind.ofCode_eq_some_iff.mp (he ▸ hk))
  | realTime => exact ⟨rfl, rfl, rfl⟩
  | status | unrecognised => exact ⟨rfl, rfl, rfl⟩
  | data _ hd =>
    obtain ⟨-, hrs, hht⟩ := hd.frame
    exact ⟨hrs, hht, hd.pd⟩

/-! ### The register-level form (R22) -/

section Regs
variable {W : Nat}

/-- Two register files read as one running status exactly when `RSV`, and `RSB` where it counts, agree. -/
theorem Regs.rs_eq_iff {r r' : Regs W} : r.rs = r'.rs ↔ r.rsv = r'.rsv ∧ (r.rsv = true → r.rsb = r'.rsb) := by
  unfold Regs.rs
  cases r.rsv <;> cases r'.rsv <;> simp

/-- The buffer read from a register file, by its count. -/
theorem Regs.pd_cases {r : Regs W} (h : r.cnt ≠ 3#2) :
    (r.cnt = 0#2 ∧ r.pd = []) ∨ (r.cnt = 1#2 ∧ r.pd = [r.pd0]) ∨ (r.cnt = 2#2 ∧ r.pd = [r.pd0, r.pd1]) := by
  have hcnt : ∀ c : BitVec 2, c ≠ 3#2 → c = 0#2 ∨ c = 1#2 ∨ c = 2#2 := by decide
  obtain hc | hc | hc := hcnt r.cnt h <;> simp [Regs.pd, hc]

/-- Two register files read as one buffer exactly when `CNT`, and the bytes it counts, agree. -/
theorem Regs.pd_eq_iff {r r' : Regs W} (h : r.cnt ≠ 3#2) (h' : r'.cnt ≠ 3#2) :
    r.pd = r'.pd ↔
      r.cnt = r'.cnt ∧ (1 ≤ r.cnt.toNat → r.pd0 = r'.pd0) ∧ (2 ≤ r.cnt.toNat → r.pd1 = r'.pd1) := by
  obtain ⟨hc, hp⟩ | ⟨hc, hp⟩ | ⟨hc, hp⟩ := Regs.pd_cases h <;>
    obtain ⟨hc', hp'⟩ | ⟨hc', hp'⟩ | ⟨hc', hp'⟩ := Regs.pd_cases h' <;> simp [hc, hp, hc', hp']

theorem Regs.ht_getElem (r : Regs W) (k : Fin Config.nKinds) :
    r.ht[k] = if r.hv[k] then some ⟨r.htag[k].toNat⟩ else none := by
  simp [Regs.ht]

/-- Two register files read as one table exactly when every `HV`, and every `HTAG` where it counts, agree. -/
theorem Regs.ht_eq_iff {r r' : Regs W} :
    r.ht = r'.ht ↔ r.hv = r'.hv ∧ ∀ k : Fin Config.nKinds, r.hv[k] = true → r.htag[k] = r'.htag[k] := by
  have hslot (k : Fin Config.nKinds) :
      r.ht[k] = r'.ht[k] ↔ r.hv[k] = r'.hv[k] ∧ (r.hv[k] = true → r.htag[k] = r'.htag[k]) := by
    rw [Regs.ht_getElem, Regs.ht_getElem]
    cases r.hv[k] <;> cases r'.hv[k] <;> simp [BitVec.toNat_inj]
  constructor
  · intro h
    have hk (k : Fin Config.nKinds) := (hslot k).mp (by rw [h])
    exact ⟨Vector.ext fun n hn => (hk ⟨n, hn⟩).1, fun k => (hk k).2⟩
  · rintro ⟨hv, htag⟩
    exact Vector.ext fun n hn => (hslot ⟨n, hn⟩).mpr ⟨by rw [hv], htag ⟨n, hn⟩⟩

/-- Register files hold one state exactly when their parser and table read the same. -/
theorem Regs.load_eq_iff {r r' : Regs W} (s : State) :
    r.load s = r'.load s ↔ r.rs = r'.rs ∧ r.pd = r'.pd ∧ r.ht = r'.ht := by
  simp [Regs.load]

/-- Register files hold one state exactly when they agree on the meaningful cells. -/
theorem Regs.load_eq_iff_sameMeaning {r r' : Regs W} (h : r.cnt ≠ 3#2) (h' : r'.cnt ≠ 3#2) (s : State) :
    r.load s = r'.load s ↔ r.SameMeaning r' := by
  rw [Regs.load_eq_iff, Regs.rs_eq_iff, Regs.pd_eq_iff h h', Regs.ht_eq_iff]
  simp only [Regs.SameMeaning, and_assoc]

/-- Every tag a register file holds fits its `W` bits. -/
theorem Regs.handlersFit_load (r : Regs W) (s : State) : (r.load s).handlersFit W = true := by
  refine State.handlersFit_iff.mpr fun k => ?_
  rw [Regs.load_ht, Regs.ht_getElem]
  split
  · exact decide_eq_true r.htag[k].isLt
  · rfl

theorem Regs.pd_length_le (r : Regs W) : r.pd.length ≤ 2 := by
  unfold Regs.pd
  split
  · simp
  split <;> simp

section Form
variable {s : State} {junk r : Regs W}

/-- A register form has the state's count, and reads as the state's parser and table. -/
theorem State.toRegs_some (h : s.toRegs junk = some r) :
    s.pd.length ≤ 2 ∧ r.cnt = BitVec.ofNat 2 s.pd.length ∧ r.rs = s.rs ∧ r.pd = s.pd ∧ r.ht = s.ht := by
  unfold State.toRegs at h
  split at h
  case isFalse => cases h
  case isTrue hform =>
    obtain ⟨hlen, hfit⟩ := hform
    cases h
    refine ⟨hlen, rfl, ?_, ?_, Vector.ext fun n hn => ?_⟩
    · cases s.rs <;> simp [Regs.rs]
    · rcases hpd : s.pd with _ | ⟨p, _ | ⟨q, _ | ⟨_, ps⟩⟩⟩
      · simp [Regs.pd]
      · simp [Regs.pd]
      · simp [Regs.pd]
      · simp [hpd] at hlen
    · have htag := State.handlersFit_iff.mp hfit ⟨n, hn⟩
      cases hk : s.ht[n] with
      | none => simp [Regs.ht, hk]
      | some o =>
        have hlt : o.tag < 2 ^ W := by simpa [hk, Handler.fits] using htag
        simp [Regs.ht, hk, Nat.mod_eq_of_lt hlt]

/-- `CNT` of a register form is never 3. -/
theorem State.toRegs_cnt (h : s.toRegs junk = some r) : r.cnt ≠ 3#2 := by
  obtain ⟨hlen, hcnt, -⟩ := State.toRegs_some h
  rw [hcnt]
  interval_cases s.pd.length <;> decide

/-- A register form read back is the state. -/
theorem State.load_of_toRegs (h : s.toRegs junk = some r) : r.load s = s := by
  obtain ⟨-, -, hrs, hpd, hht⟩ := State.toRegs_some h
  rw [Regs.load, hrs, hpd, hht]

end Form

end Regs

/-- Settles O48. A state's form reads back as the state, and two register files read as the same state exactly when they
agree on the meaningful cells; so a register file written back, which reads as the same state, agrees with it there. -/
theorem meaninglessCellsDoNotMatter : Obligations.MeaninglessCellsDoNotMatter := by
  intro W
  refine ⟨State.toRegs_isSome, fun s junk r => State.load_of_toRegs, fun s junk r hr => ?_, fun r r' hr hr' => ?_⟩
  · have hsome := (State.toRegs_isSome (r.load s) junk).mpr ⟨r.pd_length_le, r.handlersFit_load s⟩
    obtain ⟨r', hr'⟩ := Option.isSome_iff_exists.mp hsome
    exact ⟨r', hr', (Regs.load_eq_iff_sameMeaning (State.toRegs_cnt hr') hr s).mp (State.load_of_toRegs hr')⟩
  · exact ⟨fun h => (Regs.load_eq_iff_sameMeaning hr hr' .reset).mp (h _),
      fun h s => (Regs.load_eq_iff_sameMeaning hr hr' s).mpr h⟩

/-- An operation keeps the tags within `W` bits when the handler it registers fits them. -/
theorem ClassStep.handlersFit {W : Nat} {c : OpClass} {s t : State} (hc : ClassStep c s t)
    (hs : s.handlersFit W = true) (hreg : ∀ kind h, c = .register kind h → h.all (Handler.fits W) = true) :
    t.handlersFit W = true := by
  cases hc with
  | init => exact State.handlersFit_empty rfl
  | registered _ hk o => exact State.handlersFit_setSlot hs _ (hreg _ o rfl)
  | badKind | realTime | status | unrecognised => exact hs
  | data _ hd => rwa [State.handlersFit_of_ht hd.frame.2.2]

/-- Settles O51: only REGISTER writes a tag, from a word whose tag fits; and at rest at most one byte is buffered. -/
theorem stepKeepsRegisterForm : Obligations.StepKeepsRegisterForm := by
  refine fun _ => ⟨fun s t hs hw h => ?_, fun s junk hi hr hs => ?_⟩
  · obtain ⟨-, rfl⟩ | ⟨i, w, rest, hp, hd, hx⟩ := step_next h
    · exact ⟨hs, hw⟩
    · have hc := exec_next hx
      rw [hp] at hw
      have hfit := hw _ List.mem_cons_self
      refine ⟨hc.handlersFit hs fun _ _ => registered_handler_fits hfit hd, fun r hmem => ?_⟩
      rw [hc.pending] at hmem
      exact hw r (List.mem_cons_of_mem _ hmem)
  · exact (State.toRegs_isSome s junk).mpr ⟨(hr.pd_length_le hi).trans one_le_two, hs⟩

/-! ### What INIT leaves (R28) -/

/-- An empty block has a register form with every validity bit clear and count 0, whatever the other cells hold. -/
theorem State.toRegs_empty {W : Nat} {t : State} (hrs : t.rs = none) (hpd : t.pd = []) (hht : t.ht = emptyTable)
    (junk : Regs W) :
    ∃ r, t.toRegs junk = some r ∧ r.rsv = false ∧ r.cnt = 0#2 ∧ ∀ k : Fin Config.nKinds, r.hv[k] = false := by
  have hsome := (State.toRegs_isSome t junk).mpr ⟨by simp [hpd], State.handlersFit_empty hht⟩
  obtain ⟨r, hr⟩ := Option.isSome_iff_exists.mp hsome
  obtain ⟨-, hcnt, hrs', -, hht'⟩ := State.toRegs_some hr
  refine ⟨r, hr, ?_, by rw [hcnt, hpd]; rfl, fun k => ?_⟩
  · simpa [Regs.rs, hrs] using hrs'
  · have hk := r.ht_getElem k
    rw [hht', hht] at hk
    simpa using hk

/-- Settles O1: INIT empties the block, and an empty block has an empty register form. -/
theorem initLeavesEmptyBlock : Obligations.InitLeavesEmptyBlock := fun _ =>
  ⟨_, rfl, rfl, rfl, rfl, fun _ => emptyTable_getElem _ _, rfl, rfl, fun _ => State.toRegs_empty rfl rfl rfl⟩

end Sys2Proof.Machine
end

section
/-! When an operation completes, what a list of operations and a populated slot answer, and what an operation leaves
when it is repeated. -/

namespace Sys2Proof.Machine

/-! ### A list of operations, one at a time (70_reset_and_hazards.md R128) -/

theorem exec_data (d : BitVec 7) (s : State) : exec (.data d) s = receiveData (dataByte d) s := rfl

theorem execAll_cons {i : Instr} {s t : State} (h : exec i s = .next t) (is : List Instr) :
    execAll (i :: is) s = execAll is t := by
  simp only [execAll, h]

/-- A populated slot's handler is invoked (40_host_operations_and_registry.md R66). -/
theorem dispatched_of_slot {H : Type} {s : State H} {k : Kind} {h : H} (hs : s.slot k = some h) (ch d1 d2 : Byte) :
    dispatched s k ch d1 d2 = ⟨.one, [⟨k, h, ch, d1, d2⟩]⟩ := by
  simp only [dispatched, hs]

/-! ### On an initialised block only a data byte can fail to complete (60_exceptions.md R116) -/

section Completion
variable {s : State}

theorem execRegister_completes (hi : s.initd = true) (kind : BitVec 8) (o : Option Handler) :
    ∃ t, execRegister kind o s = .next t := by
  rcases hk : Kind.ofCode kind with _ | k
  · exact ⟨_, execRegister_invalid hi hk o⟩
  · exact ⟨_, execRegister_valid hi hk o⟩

theorem execReceive_completes {b : Byte} (hi : s.initd = true)
    (hdata : byteClass b = .data b → ∃ t, receiveData b s = .next t) : ∃ t, execReceive b s = .next t := by
  rcases hk : kindOfRealTime b with _ | k
  · cases hs : isStatusByte b
    · cases hd : isDataByte b
      · exact ⟨_, (execReceive_unrecognised hk hs hd s).trans (receiveUnrecognised_init hi)⟩
      · rw [execReceive_data hk hs hd]
        exact hdata (by simp [byteClass, isRealTimeByte_of_no_kind hk, hs, hd])
    · exact ⟨_, (execReceive_status hk hs s).trans (receiveStatus_init hi b)⟩
  · exact ⟨_, (execReceive_realTime hk s).trans (receiveRealTime_init hi k)⟩

/-- An instruction completes on an initialised block that takes its data byte, if it is one. -/
theorem exec_completes {i : Instr} (hi : s.initd = true)
    (hdata : ∀ d, opClass i = .data d → ∃ t, receiveData d s = .next t) : ∃ t, exec i s = .next t := by
  cases i with
  | data d => exact hdata _ rfl
  | noteOff c | noteOn c | polyAftertouch c | controlChange c | programChange c | channelAftertouch c | pitchBend c =>
    exact ⟨_, receiveStatus_init hi _⟩
  | sysUnrecognised x => exact ⟨_, receiveUnrecognised_init hi⟩
  | rtClock | rtF9 | rtStart | rtContinue | rtStop | rtFD | rtActiveSense | rtReset =>
    exact ⟨_, receiveRealTime_init hi _⟩
  | init => exact ⟨_, rfl⟩
  | register kind o => exact execRegister_completes hi kind o
  | receive b => exact execReceive_completes hi (hdata b)

end Completion

/-! ### What an operation leaves when repeated (20_memory.md R38) -/

section Repeat
variable {s t u : State}

theorem DataStep.initd {d : Byte} (h : DataStep d s t) : t.initd = s.initd := by
  cases h with
  | noStatus _ ht | first _ _ _ _ _ _ ht | second _ _ _ _ _ _ _ ht | only _ _ _ _ _ _ ht =>
    subst ht
    rfl

/-- Whatever completes leaves an initialised block (10_state.md R18). -/
theorem ClassStep.initd {c : OpClass} (h : ClassStep c s t) : t.initd = true := by
  cases h with
  | init => rfl
  | badKind hi | registered hi | realTime hi | status hi | unrecognised hi => exact hi
  | data hi hd => exact hd.initd.trans hi

/-- A real-time byte writes no cell of the block (41_realtime_bytes.md R70). -/
theorem ClassStep.sameBlock_of_realTime (h : ClassStep .realTime s t) : SameBlock s t := by
  cases h
  exact ⟨rfl, rfl, rfl, rfl⟩

/-- An operation that is no data byte, done a second time, leaves the block the first one left: what it writes does not
depend on the cells it writes. -/
theorem ClassStep.sameBlock_of_repeat {c : OpClass} (h : ClassStep c s t) (h' : ClassStep c t u)
    (hc : ∀ d, c ≠ .data d) : SameBlock u t := by
  cases h with
  | init | realTime | status | unrecognised =>
    cases h'
    exact ⟨rfl, rfl, rfl, rfl⟩
  | badKind _ hk =>
    cases h' with
    | badKind => exact ⟨rfl, rfl, rfl, rfl⟩
    | registered _ hk' => exact absurd (hk.symm.trans hk') (Option.some_ne_none _).symm
  | registered _ hk =>
    cases h' with
    | badKind _ hk' => exact absurd (hk'.symm.trans hk) (Option.some_ne_none _).symm
    | registered _ hk' =>
      obtain rfl := Option.some.inj (hk.symm.trans hk')
      exact ⟨rfl, rfl, by simp, rfl⟩
  | @data _ _ _ d => exact absurd rfl (hc d)

end Repeat

end Sys2Proof.Machine
end

section
/-! The statements of 20_memory.md. -/

namespace Sys2Proof.Machine

/-- With one of two data bytes buffered, REGISTER of the message's kind and then the second byte dispatch to the handler
just registered: REGISTER leaves the parser, and the slot is read when the byte arrives (R42). -/
theorem execAll_register_second {s : State} {b p : Byte} {k : Kind} (hi : s.initd = true) (hrs : s.rs = some b)
    (hk : kindOfStatus b = some k) (he : expected b = 2) (hp : s.pd = [p]) (d : BitVec 7) (h : Handler) :
    ∃ t, execAll [.register k.code (some h), .data d] s = .next t ∧ t.rs = some b ∧ t.pd = [] ∧ t.slot k = some h ∧
      t.outputs = s.outputs ++ [⟨.zero, []⟩, ⟨.one, [⟨k, h, channelOf b, p, dataByte d⟩]⟩] := by
  have hreg : exec (.register k.code (some h)) s = .next ((s.setSlot k (some h)).answer .zero []) :=
    execRegister_valid hi (Kind.ofCode_code k) _
  have hslot : ((s.setSlot k (some h)).answer .zero []).slot k = some h := State.slot_setSlot_same s k (some h)
  have hdata := (exec_data d _).trans
    (receiveData_second (s := (s.setSlot k (some h)).answer .zero []) hi hrs hk he hp (dataByte d))
  refine ⟨_, (execAll_cons hreg _).trans (execAll_cons hdata []), hrs, rfl, hslot, ?_⟩
  simp [dispatched_of_slot hslot]

/-- Settles O33: the first data byte is buffered, and REGISTER and the second one then find it there. -/
theorem registerInsideMessageTakesEffect : Obligations.RegisterInsideMessageTakesEffect := by
  intro s b k d d' h hi hrs hk he hp
  have hfirst : exec (.data d) s = .next { s with pd := [dataByte d], outputs := s.outputs ++ [⟨.zero, []⟩] } :=
    receiveData_first hi hrs hk he hp (dataByte d)
  obtain ⟨t, hx, hrs', hpd, hslot, hout⟩ := execAll_register_second
    (s := { s with pd := [dataByte d], outputs := s.outputs ++ [⟨.zero, []⟩] }) hi hrs hk he rfl d' h
  refine ⟨t, (execAll_cons hfirst _).trans hx, hrs', hpd, hslot, ?_⟩
  simpa using hout

/-- Settles O47: none of the four classes is a data byte, so the operation completes again, and done again it leaves the
same block. -/
theorem repeatingChangesNothingMore : Obligations.RepeatingChangesNothingMore := by
  intro i s t h
  have hc := exec_next h
  refine ⟨fun hcls => ?_, fun hrt => (hrt ▸ hc).sameBlock_of_realTime⟩
  have hnd : ∀ d, opClass i ≠ .data d := by
    rintro d hd
    obtain ⟨b, hb⟩ | hb | ⟨k, o, hb⟩ | hb := hcls <;> rw [hd] at hb <;> cases hb
  obtain ⟨u, hu⟩ := exec_completes hc.initd fun d hd => absurd hd (hnd d)
  exact ⟨u, hu, hc.sameBlock_of_repeat (exec_next hu) hnd⟩

end Sys2Proof.Machine
end

section
/-! What a byte of the stream does, by its range (30_encoding.md R45, 40_host_operations_and_registry.md R67), when a
data byte completes, and that an operation sees the block alone (10_state.md R19). -/

namespace Sys2Proof.Machine

/-! ### The instruction of a byte (30_encoding.md R44 to R52) -/

theorem encode_decodeByte : ∀ b : Byte, encode (decodeByte b) = .stream b := by decide

theorem decodeByte_dataByte : ∀ d : BitVec 7, decodeByte (dataByte d) = .data d := by decide

theorem dataByte_loSeven : ∀ b : Byte, b.msb = false → dataByte (loSeven b) = b := by decide

/-- A byte is hit by the row of what it decodes to. -/
theorem decodeByte_row_hits : ∀ b : Byte, (decodeByte b).row.hits b = true := by decide

/-- The table's row for data bytes tests the top bit alone. -/
theorem data_row_hits : ∀ b : Byte, (Instr.data 0#7).row.hits b = !b.msb := by decide

theorem kindOfRealTime_isRealTime : ∀ b : Byte, (kindOfRealTime b).all Kind.isRealTime = true := by decide

theorem isStatusByte_of_kind {b : Byte} {k : Kind} (hk : kindOfStatus b = some k) : isStatusByte b = true := by
  rw [← kindOfStatus_isSome, hk, Option.isSome_some]

/-- The ranges are disjoint (20_memory.md R39). -/
theorem kindOfRealTime_of_status : ∀ b : Byte, isStatusByte b = true → kindOfRealTime b = none := by decide

theorem ranges_of_data : ∀ b : Byte, isDataByte b = true → kindOfRealTime b = none ∧ isStatusByte b = false := by decide

theorem ranges_of_unrecognised : ∀ b : Byte, isUnrecognisedByte b = true →
    kindOfRealTime b = none ∧ isStatusByte b = false ∧ isDataByte b = false := by decide

theorem isUnrecognisedByte_unrecognisedByte : ∀ x : BitVec 3, isUnrecognisedByte (unrecognisedByte x) = true := by
  decide

/-! ### The meaning of a byte, by its range -/

section Meaning
variable {H : Type}

theorem execReceive_of_status {b : Byte} (hb : isStatusByte b = true) (s : State H) :
    execReceive b s = receiveStatus b s :=
  execReceive_status (kindOfRealTime_of_status b hb) hb s

theorem execReceive_of_data {b : Byte} (hb : isDataByte b = true) (s : State H) : execReceive b s = receiveData b s :=
  have ⟨hk, hs⟩ := ranges_of_data b hb
  execReceive_data hk hs hb s

theorem execReceive_of_unrecognised {b : Byte} (hb : isUnrecognisedByte b = true) (s : State H) :
    execReceive b s = receiveUnrecognised s :=
  have ⟨hk, hs, hd⟩ := ranges_of_unrecognised b hb
  execReceive_unrecognised hk hs hd s

end Meaning

/-- The class a byte decodes to means what R67's pseudocode does on the byte. -/
theorem exec_decodeByte (b : Byte) (s : State) : exec (decodeByte b) s = execReceive b s := by
  have he := encode_decodeByte b
  generalize decodeByte b = i at he
  cases i with
  | data d =>
    cases he
    exact (execReceive_of_data (dataByte_isData d).1 s).symm
  | noteOff c | noteOn c | polyAftertouch c | controlChange c | programChange c | channelAftertouch c | pitchBend c =>
    cases he
    exact (execReceive_of_status (isStatusByte_statusByte _ c (by decide) (by decide)) s).symm
  | sysUnrecognised x =>
    cases he
    exact (execReceive_of_unrecognised (isUnrecognisedByte_unrecognisedByte x) s).symm
  | rtClock | rtF9 | rtStart | rtContinue | rtStop | rtFD | rtActiveSense | rtReset =>
    cases he
    exact (execReceive_realTime rfl s).symm
  | init | register kind o | receive b' => cases he

theorem receiveAll_cons {b : Byte} {s t : State} (h : execReceive b s = .next t) (bs : List Byte) :
    receiveAll (b :: bs) s = receiveAll bs t :=
  execAll_cons ((exec_decodeByte b s).trans h) _

/-! ### A data byte at rest (10_state.md R20) -/

/-- At rest after INIT, a data byte meets one of the four cases of 43_data_bytes.md R87. -/
theorem receiveData_completes {s : State} (hs : AtRest s) (hi : s.initd = true) (d : Byte) :
    ∃ t, receiveData d s = .next t := by
  obtain ⟨h1, -, h3, -⟩ := hs hi
  rcases hrs : s.rs with _ | b
  · exact ⟨_, receiveData_noStatus hi hrs d⟩
  have hstatus : isStatusByte b = true := isStatusByte_iff.mpr (h1 b hrs)
  obtain ⟨k, hk⟩ := Option.isSome_iff_exists.mp ((kindOfStatus_isSome b).trans hstatus)
  have hlt := h3 b hrs
  obtain he | he := expected_cases b
  · have hp : s.pd = [] := List.length_eq_zero_iff.mp (by omega)
    exact ⟨_, receiveData_only hi hrs hk he hp d⟩
  · rcases hp : s.pd with _ | ⟨p, ps⟩
    · exact ⟨_, receiveData_first hi hrs hk he hp d⟩
    · have hps : ps = [] := List.length_eq_zero_iff.mp (by rw [hp, List.length_cons] at hlt; omega)
      exact ⟨_, receiveData_second hi hrs hk he (hps ▸ hp) d⟩

/-! ### An operation sees the block alone (R19) -/

section SameBlock
variable {s t s' t' : State}

theorem dispatch_of_ht (h : s.ht = t.ht) (k : Kind) (args : Byte × Byte × Byte) :
    dispatch s k args = dispatch t k args := by
  simp only [dispatch, State.slot_of_ht h]

theorem done_sameAnswer {r : Result} {es : List Event} (hb : SameBlock s' t') (hs : s'.outputs = s.outputs)
    (ht : t'.outputs = t.outputs) : SameAnswer s t (done s' r es) (done t' r es) :=
  ⟨hb, ⟨r, es⟩, by simp [hs], by simp [ht]⟩

theorem whenInit_sameAnswer (h : SameBlock s t) {x y : Outcome} (hxy : SameAnswer s t x y) :
    SameAnswer s t (whenInit s x) (whenInit t y) := by
  obtain ⟨-, -, -, hi⟩ := h
  unfold whenInit
  rw [← hi]
  split
  · exact hxy
  · rfl

theorem answerDispatch_sameAnswer {k : Kind} {args : Byte × Byte × Byte} (h : SameBlock s t) (hb : SameBlock s' t')
    (hs : s'.outputs = s.outputs) (ht : t'.outputs = t.outputs) :
    SameAnswer s t (answerDispatch s s' k args) (answerDispatch t t' k args) := by
  obtain ⟨-, -, hht, -⟩ := h
  unfold answerDispatch
  rw [dispatch_of_ht hht]
  exact done_sameAnswer hb hs ht

theorem receiveRealTime_sameAnswer (h : SameBlock s t) (k : Kind) :
    SameAnswer s t (receiveRealTime k s) (receiveRealTime k t) :=
  whenInit_sameAnswer h (answerDispatch_sameAnswer h h rfl rfl)

theorem receiveStatus_sameAnswer (h : SameBlock s t) (b : Byte) :
    SameAnswer s t (receiveStatus b s) (receiveStatus b t) := by
  have ⟨_, _, hht, hi⟩ := h
  exact whenInit_sameAnswer h (done_sameAnswer ⟨rfl, rfl, hht, hi⟩ rfl rfl)

theorem receiveUnrecognised_sameAnswer (h : SameBlock s t) :
    SameAnswer s t (receiveUnrecognised s) (receiveUnrecognised t) := by
  have ⟨_, _, hht, hi⟩ := h
  exact whenInit_sameAnswer h (done_sameAnswer ⟨rfl, rfl, hht, hi⟩ rfl rfl)

theorem receiveData_sameAnswer (h : SameBlock s t) (d : Byte) :
    SameAnswer s t (receiveData d s) (receiveData d t) := by
  have ⟨hrs, hpd, hht, hi⟩ := h
  refine whenInit_sameAnswer h ?_
  rw [← hrs, ← hpd]
  split
  · exact done_sameAnswer h rfl rfl
  · split
    · exact done_sameAnswer ⟨rfl, rfl, hht, hi⟩ rfl rfl
    · exact answerDispatch_sameAnswer h ⟨hrs, rfl, hht, hi⟩ rfl rfl
    · exact answerDispatch_sameAnswer h ⟨hrs, rfl, hht, hi⟩ rfl rfl
    · rfl

theorem execRegister_sameAnswer (h : SameBlock s t) (kind : BitVec 8) (o : Option Handler) :
    SameAnswer s t (execRegister kind o s) (execRegister kind o t) := by
  have ⟨hrs, hpd, hht, hi⟩ := h
  refine whenInit_sameAnswer h ?_
  split
  · exact done_sameAnswer h rfl rfl
  · exact done_sameAnswer ⟨hrs, hpd, by simp [hht], hi⟩ rfl rfl

theorem execReceive_sameAnswer (h : SameBlock s t) (b : Byte) :
    SameAnswer s t (execReceive b s) (execReceive b t) := by
  rcases hk : kindOfRealTime b with _ | k
  · cases hs : isStatusByte b
    · cases hd : isDataByte b
      · simpa only [execReceive_unrecognised hk hs hd] using receiveUnrecognised_sameAnswer h
      · simpa only [execReceive_data hk hs hd] using receiveData_sameAnswer h b
    · simpa only [execReceive_status hk hs] using receiveStatus_sameAnswer h b
  · simpa only [execReceive_realTime hk] using receiveRealTime_sameAnswer h k

/-- Of two states with the same block, an operation makes the same block and the same output (log 2, log 3). -/
theorem exec_sameAnswer (h : SameBlock s t) (i : Instr) : SameAnswer s t (exec i s) (exec i t) := by
  cases i with
  | data d => exact receiveData_sameAnswer h _
  | noteOff c | noteOn c | polyAftertouch c | controlChange c | programChange c | channelAftertouch c | pitchBend c =>
    exact receiveStatus_sameAnswer h _
  | sysUnrecognised x => exact receiveUnrecognised_sameAnswer h
  | rtClock | rtF9 | rtStart | rtContinue | rtStop | rtFD | rtActiveSense | rtReset =>
    exact receiveRealTime_sameAnswer h _
  | init => exact done_sameAnswer ⟨rfl, rfl, rfl, rfl⟩ rfl rfl
  | register kind o => exact execRegister_sameAnswer h kind o
  | receive b => exact execReceive_sameAnswer h b

theorem SameAnswer.of_next {y : Outcome} (h : SameAnswer s t (.next s') y) :
    ∃ t' o, y = .next t' ∧ SameBlock s' t' ∧ s'.outputs = s.outputs ++ [o] ∧ t'.outputs = t.outputs ++ [o] := by
  cases y with
  | next t' =>
    obtain ⟨hb, o, hs, ht⟩ := h
    exact ⟨t', o, rfl, hb, hs, ht⟩
  | fault r => exact h.elim
  | refused r => exact h.elim

end SameBlock

end Sys2Proof.Machine
end

section
/-! The statements of 30_encoding.md. -/

namespace Sys2Proof.Machine

/-- Settles O13: the threshold is the weight of the top bit, a byte without it is its own payload, and the data row of
the opcode table hits no byte with it. -/
theorem topBitTellsStatusFromData : Obligations.TopBitTellsStatusFromData := by
  refine fun b => ⟨?_, fun hb => ?_, fun hb hrow => ?_⟩
  · rw [BitVec.msb_eq_decide, decide_eq_true_iff]
    exact BitVec.le_def
  · have hd : dataByte (loSeven b) = b := dataByte_loSeven b hb
    have hdec : decodeByte b = .data (loSeven b) := by rw [← decodeByte_dataByte, hd]
    exact ⟨hd.symm, hdec⟩
  · have hits := decodeByte_row_hits b
    rw [hrow, data_row_hits, hb] at hits
    exact Bool.false_ne_true hits

/-! ### Real-time bytes in a stream (R54) -/

theorem voiceEvents_append (os os' : List Output) : voiceEvents (os ++ os') = voiceEvents os ++ voiceEvents os' := by
  simp [voiceEvents]

theorem voiceEvents_dispatched_realTime {k : Kind} (hk : k.isRealTime = true) (s : State) (ch d1 d2 : Byte) :
    voiceEvents [dispatched s k ch d1 d2] = [] := by
  unfold dispatched
  split <;> simp [voiceEvents, hk]

/-- What a stream leaves for a listener to channel voice: the block, and the channel-voice events in order. -/
def SameVoice (s t : State) : Prop := SameBlock s t ∧ voiceEvents s.outputs = voiceEvents t.outputs

section Voice
variable {s t u : State}

/-- A real-time byte is not heard: it writes no cell, and its event is of a real-time kind (41_ R70). -/
theorem SameVoice.of_realTime (h : SameVoice s u) {b : Byte} {k : Kind} (hk : kindOfRealTime b = some k)
    (hx : execReceive b s = .next t) : SameVoice t u := by
  obtain ⟨hb, hv⟩ := h
  have hreal : k.isRealTime = true := by simpa [hk] using kindOfRealTime_isRealTime b
  rw [execReceive_realTime hk, receiveRealTime_init (whenInit_next hx).1] at hx
  cases hx
  exact ⟨hb, by rw [voiceEvents_append, voiceEvents_dispatched_realTime hreal, List.append_nil, hv]⟩

/-- Any byte is heard alike by two blocks that are the same. -/
theorem SameVoice.receive (h : SameVoice s u) {b : Byte} (hx : execReceive b s = .next t) :
    ∃ v, execReceive b u = .next v ∧ SameVoice t v := by
  obtain ⟨hb, hv⟩ := h
  obtain ⟨v, o, hxu, hb', hs, hu⟩ := SameAnswer.of_next (hx ▸ execReceive_sameAnswer hb b)
  exact ⟨v, hxu, hb', by rw [hs, hu, voiceEvents_append, voiceEvents_append, hv]⟩

/-- The stream and the stream without its real-time bytes, side by side: what is the same before is the same after. -/
theorem receiveAll_filter_realTime (bs : List Byte) (hi : s.initd = true) (hs : AtRest s) (h : SameVoice s u) :
    ∃ t v, receiveAll bs s = .next t ∧ receiveAll (bs.filter fun b => !isRealTimeByte b) u = .next v ∧
      SameVoice t v := by
  induction bs generalizing s u with
  | nil => exact ⟨s, u, rfl, rfl, h⟩
  | cons b bs ih =>
    obtain ⟨s', hx⟩ := execReceive_completes hi fun _ => receiveData_completes hs hi b
    have hi' : s'.initd = true := (execReceive_next hx).initd
    have hs' : AtRest s' := exec_atRest (i := .receive b) hx hs
    rw [receiveAll_cons hx]
    rcases hk : kindOfRealTime b with _ | k
    · obtain ⟨u', hxu, h'⟩ := h.receive hx
      rw [List.filter_cons_of_pos (by simp [isRealTimeByte_of_no_kind hk]), receiveAll_cons hxu]
      exact ih hi' hs' h'
    · rw [List.filter_cons_of_neg (by simp [isRealTimeByte_of_kind hk])]
      exact ih hi' hs' (h.of_realTime hk hx)

end Voice

/-- Settles O19: the two streams run side by side, and the meanings of the two other kinds of status byte empty the
buffer. -/
theorem realTimeBytesAreTransparent : Obligations.RealTimeBytesAreTransparent := by
  refine ⟨fun bs s hi hs => ?_, fun b s hi hb => ?_⟩
  · obtain ⟨t, u, ht, hu, ⟨hrs, hpd, hht, -⟩, hv⟩ :=
      receiveAll_filter_realTime (u := s) bs hi hs ⟨⟨rfl, rfl, rfl, rfl⟩, rfl⟩
    exact ⟨t, u, ht, hu, hrs, hpd, hht, hv⟩
  · rw [exec_decodeByte]
    obtain hb | hb := hb
    · exact ⟨_, (execReceive_of_status hb s).trans (receiveStatus_init hi b), rfl, rfl⟩
    · exact ⟨_, (execReceive_of_unrecognised hb s).trans (receiveUnrecognised_init hi), rfl, rfl⟩

/-! ### Whole messages (R62) -/

section Message
variable {s : State} {n ch : BitVec 4} {k : Kind}

/-- A dispatch reads the table alone (40_host_operations_and_registry.md R66). -/
theorem dispatched_mk (s : State) (rs : Option Byte) (pd : List Byte) (up : Bool) (rq : List Request)
    (os : List Output) (k : Kind) (ch d1 d2 : Byte) :
    dispatched ⟨rs, pd, s.ht, up, rq, os⟩ k ch d1 d2 = dispatched s k ch d1 d2 := rfl

/-- A stream that begins with the status byte of a message goes on from the message just begun (42_ R79). -/
theorem receiveAll_statusByte (hi : s.initd = true) (hk : kindOfStatus (statusByte n ch) = some k) (bs : List Byte) :
    receiveAll (statusByte n ch :: bs) s =
      receiveAll bs { s with rs := some (statusByte n ch), pd := [], outputs := s.outputs ++ [⟨.zero, []⟩] } :=
  receiveAll_cons ((execReceive_of_status (isStatusByte_of_kind hk) s).trans (receiveStatus_init hi _)) bs

theorem receiveAll_dataByte {d : BitVec 7} {t : State} (h : receiveData (dataByte d) s = .next t) (bs : List Byte) :
    receiveAll (dataByte d :: bs) s = receiveAll bs t :=
  receiveAll_cons ((execReceive_of_data (dataByte_isData d).1 s).trans h) bs

/-- Two data bytes under a running status that expects two dispatch once, at the second one (43_data_bytes.md R90). -/
theorem receiveAll_twoDataBytes {b : Byte} (hi : s.initd = true) (hrs : s.rs = some b) (hk : kindOfStatus b = some k)
    (he : expected b = 2) (hp : s.pd = []) (d1 d2 : BitVec 7) :
    receiveAll [dataByte d1, dataByte d2] s = .next { s with
      pd := [], outputs := s.outputs ++ [⟨.zero, []⟩, dispatched s k (channelOf b) (dataByte d1) (dataByte d2)] } := by
  have hsecond := receiveData_second (p := dataByte d1)
    (s := { s with pd := [dataByte d1], outputs := s.outputs ++ [⟨.zero, []⟩] }) hi hrs hk he rfl (dataByte d2)
  rw [receiveAll_dataByte (receiveData_first hi hrs hk he hp _), receiveAll_dataByte hsecond]
  simp [receiveAll, execAll, dispatched_mk]

/-- One data byte under a running status that expects one dispatches, with the placeholder for the second (R91). -/
theorem receiveAll_oneDataByte {b : Byte} (hi : s.initd = true) (hrs : s.rs = some b) (hk : kindOfStatus b = some k)
    (he : expected b = 1) (hp : s.pd = []) (d1 : BitVec 7) :
    receiveAll [dataByte d1] s = .next { s with
      pd := [], outputs := s.outputs ++ [dispatched s k (channelOf b) (dataByte d1) 0#8] } :=
  receiveAll_dataByte (receiveData_only hi hrs hk he hp _) []

/-- A message of two data bytes dispatches at its last byte. -/
theorem receiveAll_twoByteMessage (hi : s.initd = true) (hk : kindOfStatus (statusByte n ch) = some k)
    (he : expected (statusByte n ch) = 2) (d1 d2 : BitVec 7) :
    receiveAll [statusByte n ch, dataByte d1, dataByte d2] s = .next { s with
      rs := some (n ++ ch), pd := [],
      outputs := s.outputs ++
        [⟨.zero, []⟩, ⟨.zero, []⟩, dispatched s k (ch.zeroExtend 8) (dataByte d1) (dataByte d2)] } := by
  have hdata := receiveAll_twoDataBytes (b := statusByte n ch)
    (s := { s with rs := some (statusByte n ch), pd := [], outputs := s.outputs ++ [⟨.zero, []⟩] })
    hi rfl hk he rfl d1 d2
  rw [receiveAll_statusByte hi hk, hdata, statusByte_channel]
  simp [statusByte, dispatched_mk]

/-- A message of one data byte dispatches at its last byte. -/
theorem receiveAll_oneByteMessage (hi : s.initd = true) (hk : kindOfStatus (statusByte n ch) = some k)
    (he : expected (statusByte n ch) = 1) (d1 : BitVec 7) :
    receiveAll [statusByte n ch, dataByte d1] s = .next { s with
      rs := some (n ++ ch), pd := [],
      outputs := s.outputs ++ [⟨.zero, []⟩, dispatched s k (ch.zeroExtend 8) (dataByte d1) 0#8] } := by
  have hdata := receiveAll_oneDataByte (b := statusByte n ch)
    (s := { s with rs := some (statusByte n ch), pd := [], outputs := s.outputs ++ [⟨.zero, []⟩] })
    hi rfl hk he rfl d1
  rw [receiveAll_statusByte hi hk, hdata, statusByte_channel]
  simp [statusByte, dispatched_mk]

end Message

/-- Settles O36: each of the seven is a message of two data bytes or of one, by the kind and count of its nibble. -/
theorem wholeMessagesDispatchOnce : Obligations.WholeMessagesDispatchOnce := by
  intro ch d1 d2 s hi
  obtain ⟨k8, k9, kA, kB, kC, kD, kE⟩ := statusByte_kind ch
  obtain ⟨e8, e9, eA, eB, eC, eD, eE⟩ := statusByte_expected ch
  simp only [List.forall_mem_cons, List.not_mem_nil, false_imp_iff, implies_true, and_true]
  exact ⟨⟨receiveAll_twoByteMessage hi k8 e8 d1 d2, receiveAll_twoByteMessage hi k9 e9 d1 d2,
      receiveAll_twoByteMessage hi kA eA d1 d2, receiveAll_twoByteMessage hi kB eB d1 d2,
      receiveAll_twoByteMessage hi kE eE d1 d2⟩,
    receiveAll_oneByteMessage hi kC eC d1, receiveAll_oneByteMessage hi kD eD d1⟩

end Sys2Proof.Machine
end

section
/-! The statements of 40_host_operations_and_registry.md about REGISTER. -/

namespace Sys2Proof.Machine

/-! ### REGISTER of a valid kind (R65) -/

/-- The codes below 15 are codes of kinds (20_memory.md R31). -/
theorem Kind.exists_code {kind : BitVec 8} (hlt : kind.toNat < 15) : ∃ k : Kind, k.code = kind := by
  rcases hk : Kind.ofCode kind with _ | k
  · have hle : 15 ≤ kind.toNat := (Kind.ofCode_eq_none_iff kind).mp hk
    omega
  · exact ⟨k, Kind.ofCode_eq_some_iff.mp hk⟩

/-- REGISTER of a kind writes that kind's slot and answers 0. -/
theorem exec_register_code {s : State} (hi : s.initd = true) (k : Kind) (h : Option Handler) :
    exec (.register k.code h) s = .next ((s.setSlot k h).answer .zero []) :=
  execRegister_valid hi (Kind.ofCode_code k) h

/-- Of two writes to one slot the later one stands. -/
theorem State.setSlot_setSlot_ht {H : Type} (s : State H) (k : Kind) (h h' : Option H) :
    ((s.setSlot k h).setSlot k h').ht = (s.setSlot k h').ht := by
  simp

/-! ### Operations from inside a handler (70_reset_and_hazards.md R120) -/

/-- A handler's request is refused before its word is decoded. -/
theorem step_of_handler_request {s : State} {w : WireWord} {rest : List Request}
    (hp : s.pending = ⟨.handler, w⟩ :: rest) : step s = .refused .fromHandler := by
  simp only [step, fetch, hp]

/-- Settles O31: what a valid REGISTER leaves is the state with one slot written, so its clauses are the rules of the
slots; an invalid one raises the error, and a handler's request is refused whatever its word. -/
theorem registerWritesOneSlot : Obligations.RegisterWritesOneSlot := by
  refine ⟨fun kind h s hi hle => ?invalid, fun k h s hi => ?valid, fun kind hlt => Kind.exists_code hlt,
    fun k h h' s hi => ?last, fun s p rest _ hp => step_of_handler_request hp⟩
  case invalid => exact execRegister_invalid hi ((Kind.ofCode_eq_none_iff kind).mpr hle) h
  case valid =>
    exact ⟨_, exec_register_code hi k h, State.slot_setSlot_same s k h,
      fun k' hne => State.slot_setSlot_other s h hne, rfl⟩
  case last =>
    have hfirst := exec_register_code hi k h
    have hsecond := exec_register_code (s := (s.setSlot k h).answer .zero []) hi k h'
    exact ⟨_, _, (execAll_cons hfirst _).trans (execAll_cons hsecond []), exec_register_code hi k h',
      State.setSlot_setSlot_ht s k h h'⟩

end Sys2Proof.Machine
end

section
/-! The statement of 42_channel_voice_status_bytes.md. -/

namespace Sys2Proof.Machine

/-- The index of a status byte's kind is its high nibble (30_encoding.md R51). -/
theorem index_of_kindOfStatus {b : Byte} {k : Kind} (hk : kindOfStatus b = some k) :
    k.index.val = (hiNibble b).toNat := by
  rw [kindOfStatus, if_pos (isStatusByte_of_kind hk)] at hk
  exact Kind.index_of_ofIndex hk

/-- A status byte is of a given kind exactly when that kind's index is its high nibble. -/
theorem kindOfStatus_eq_iff_hiNibble {b : Byte} {k k' : Kind} (hk : kindOfStatus b = some k) :
    k = k' ↔ hiNibble b = BitVec.ofNat 4 k'.index.val := by
  have hn := index_of_kindOfStatus hk
  constructor
  · rintro rfl
    rw [hn, BitVec.ofNat_toNat, BitVec.setWidth_eq]
  · intro h
    refine Kind.index_injective _ _ (Fin.ext ?_)
    rw [hn, h, BitVec.toNat_ofNat, Nat.mod_eq_of_lt (k'.index.isLt.trans (by decide))]

/-- The expected count by kind: 1 for program change and channel aftertouch, 2 for the five others (10_state.md R16). -/
theorem expected_of_kind {b : Byte} {k : Kind} (hk : kindOfStatus b = some k) :
    expected b = if k = .programChange ∨ k = .channelAftertouch then 1 else 2 := by
  simp only [kindOfStatus_eq_iff_hiNibble hk]
  rfl

/-- Settles O20: the byte is in the range of R47, so it is received as R79 says, and it has a kind, which its high nibble
fixes as it fixes the expected count. -/
theorem statusByteOpensMessage : Obligations.StatusByteOpensMessage := by
  intro b s hi hlo hhi
  have hb : isStatusByte b = true := isStatusByte_iff.mpr ⟨BitVec.le_def.mpr hlo, BitVec.le_def.mpr hhi⟩
  obtain ⟨k, hk⟩ := Option.isSome_iff_exists.mp ((kindOfStatus_isSome b).trans hb)
  refine ⟨?_, k, hk, expected_of_kind hk⟩
  rw [exec_decodeByte, execReceive_of_status hb]
  exact receiveStatus_init hi b

end Sys2Proof.Machine
end

section
/-! The statements of 43_data_bytes.md. -/

namespace Sys2Proof.Machine

/-! ### What a dispatch answers (40_host_operations_and_registry.md R66) -/

/-- With an empty slot no handler is invoked. -/
theorem dispatched_of_empty_slot {H : Type} {s : State H} {k : Kind} (hs : s.slot k = none) (ch d1 d2 : Byte) :
    dispatched s k ch d1 d2 = ⟨.zero, []⟩ := by
  simp only [dispatched, hs]

/-- The result of a dispatch is a count, and no error. -/
theorem dispatched_result {H : Type} (s : State H) (k : Kind) (ch d1 d2 : Byte) :
    (dispatched s k ch d1 d2).result = .zero ∨ (dispatched s k ch d1 d2).result = .one := by
  rcases hs : s.slot k with _ | h
  · exact .inl (by rw [dispatched_of_empty_slot hs])
  · exact .inr (by rw [dispatched_of_slot hs])

/-- Settles O22: the state after the error has the same idle block, so a data byte errs again there, and the two other
kinds of byte mean what they mean in every initialised state. -/
theorem dataByteWithoutRunningStatus : Obligations.DataByteWithoutRunningStatus := by
  intro d s hi hrs
  obtain ⟨t, hx, ht, hti, htrs⟩ : ∃ t, exec (.data d) s = .next t ∧
      t = { s with outputs := s.outputs ++ [⟨.badChannelState, []⟩] } ∧ t.initd = true ∧ t.rs = none :=
    ⟨_, receiveData_noStatus hi hrs _, rfl, hi, hrs⟩
  refine ⟨t, hx, ht, fun d' => ?again, fun b hb => ?status, fun b hb => ?realTime⟩
  case again => exact receiveData_noStatus hti htrs _
  case status =>
    rw [exec_decodeByte, execReceive_of_status hb]
    exact receiveStatus_init hti b
  case realTime =>
    obtain ⟨k, hk⟩ := Option.isSome_iff_exists.mp ((kindOfRealTime_isSome b).trans hb)
    rw [exec_decodeByte, execReceive_realTime hk]
    exact ⟨_, _, receiveRealTime_init hti k, rfl, dispatched_result ..⟩

/-! ### What becomes of a buffered byte (R89) -/

section Buffer
variable {c : OpClass} {s t : State}

/-- Real-time bytes and REGISTER, valid or not, leave the buffer alone. -/
theorem ClassStep.pd_kept (h : ClassStep c s t) (hc : c = .realTime ∨ ∃ k o, c = .register k o) : t.pd = s.pd := by
  cases h with
  | realTime | badKind | registered => rfl
  | init | status | data | unrecognised => simp at hc

/-- INIT and the two kinds of status byte outside real time empty the buffer. -/
theorem ClassStep.pd_dropped (h : ClassStep c s t) (hc : c = .init ∨ c = .unrecognised ∨ ∃ b, c = .status b) :
    t.pd = [] := by
  cases h with
  | init | status | unrecognised => rfl
  | realTime | badKind | registered | data => simp at hc

end Buffer

/-- Settles O24: the byte is buffered as the first of two, and the inversion lemma of `exec` says what each class of
operation does to the buffer. -/
theorem firstOfTwoDataBytesIsBuffered : Obligations.FirstOfTwoDataBytesIsBuffered := by
  intro d s b hi hb hrs he hp
  obtain ⟨k, hk⟩ := Option.isSome_iff_exists.mp ((kindOfStatus_isSome b).trans hb)
  exact ⟨_, (exec_data d s).trans (receiveData_first hi hrs hk he hp _), rfl,
    fun _ _ hx => (exec_next hx).pd_kept, fun _ _ hx => (exec_next hx).pd_dropped⟩

/-! ### Completion (R90, R91) -/

/-- Settles O25: the dispatch of the second byte, for either content of the slot. -/
theorem secondDataByteCompletes : Obligations.SecondDataByteCompletes := by
  intro d s b p k hi hrs hk he hp
  have hx := (exec_data d s).trans (receiveData_second hi hrs hk he hp (dataByte d))
  exact ⟨fun hs => dispatched_of_empty_slot hs .. ▸ hx, fun _ hs => dispatched_of_slot hs .. ▸ hx⟩

/-- Settles O26: the dispatch of the only byte, for either content of the slot. -/
theorem onlyDataByteCompletes : Obligations.OnlyDataByteCompletes := by
  intro d s b k hi hrs hk he hp
  have hx := (exec_data d s).trans (receiveData_only hi hrs hk he hp (dataByte d))
  exact ⟨fun hs => dispatched_of_empty_slot hs .. ▸ hx, fun _ hs => dispatched_of_slot hs .. ▸ hx⟩

/-! ### Running status (R92) -/

/-- Operations after others that complete go on from the state those leave (70_reset_and_hazards.md R128). -/
theorem execAll_append {is : List Instr} {s t : State} (h : execAll is s = .next t) (js : List Instr) :
    execAll (is ++ js) s = execAll js t := by
  induction is generalizing s with
  | nil =>
    cases h
    rfl
  | cons i is ih =>
    cases hx : exec i s with
    | next u =>
      rw [execAll_cons hx] at h
      rw [List.cons_append, execAll_cons hx, ih h]
    | fault r | refused r => simp [execAll, hx] at h

/-- Bytes after others that complete go on from the state those leave. -/
theorem receiveAll_append {bs : List Byte} {s t : State} (h : receiveAll bs s = .next t) (cs : List Byte) :
    receiveAll (bs ++ cs) s = receiveAll cs t := by
  rw [receiveAll, List.map_append]
  exact execAll_append h _

/-- If every group of bytes leaves the block and answers its own outputs, whatever was answered before, so does any
number of groups. -/
theorem receiveAll_flatMap {α : Type} {f : α → List Byte} {g : α → List Output} {s : State}
    (hgroup : ∀ a os, receiveAll (f a) { s with outputs := os } = .next { s with outputs := os ++ g a })
    (as : List α) (os : List Output) :
    receiveAll (as.flatMap f) { s with outputs := os } = .next { s with outputs := os ++ as.flatMap g } := by
  induction as generalizing os with
  | nil =>
    rw [List.flatMap_nil, List.flatMap_nil, List.append_nil]
    rfl
  | cons a as ih =>
    rw [List.flatMap_cons, List.flatMap_cons, receiveAll_append (hgroup a os), ih, List.append_assoc]

/-- Settles O28: each group is one message and leaves the running status and an empty buffer, as it found them, so the
groups go on for as long as they come. -/
theorem runningStatusIsReused : Obligations.RunningStatusIsReused := by
  intro s b k hi hrs hk hp
  refine ⟨fun he ps => receiveAll_flatMap (fun p os => ?two) ps s.outputs, fun he ds => ?_⟩
  case two =>
    have hmsg := receiveAll_twoDataBytes (s := { s with outputs := os }) hi hrs hk he hp p.1 p.2
    simpa only [hp, dispatched_mk] using hmsg
  · rw [List.map_eq_flatMap, List.map_eq_flatMap]
    refine receiveAll_flatMap (fun d os => ?one) ds s.outputs
    have hmsg := receiveAll_oneDataByte (s := { s with outputs := os }) hi hrs hk he hp d
    simpa only [hp, dispatched_mk] using hmsg

end Sys2Proof.Machine
end

section
/-! The statements of 44_unrecognised_status_bytes.md. -/

namespace Sys2Proof.Machine

/-! ### The eight byte values (R100) -/

theorem unrecognisedByte_range : ∀ x : BitVec 3,
    0xF0 ≤ (unrecognisedByte x).toNat ∧ (unrecognisedByte x).toNat ≤ 0xF7 := by decide

/-- A byte of the range is `11110` and its own low three bits. -/
theorem unrecognisedByte_loThree : ∀ b : Byte, 0xF0 ≤ b.toNat → b.toNat ≤ 0xF7 → unrecognisedByte (loThree b) = b := by
  decide

theorem decodeByte_unrecognisedByte : ∀ x : BitVec 3, decodeByte (unrecognisedByte x) = .sysUnrecognised x := by decide

/-- A byte decodes to an unrecognised status byte exactly when it is encoded as one. -/
theorem decodeByte_eq_sysUnrecognised_iff {b : Byte} {x : BitVec 3} :
    decodeByte b = .sysUnrecognised x ↔ b = unrecognisedByte x := by
  constructor
  · intro h
    have he := encode_decodeByte b
    rw [h] at he
    exact (WireWord.stream.inj he).symm
  · rintro rfl
    exact decodeByte_unrecognisedByte x

/-- Settles O29: the meaning does not look at the low three bits, and the bytes encoded so are the range. -/
theorem unrecognisedByteClearsParser : Obligations.UnrecognisedByteClearsParser := by
  refine ⟨fun x s hi => receiveUnrecognised_init hi, fun b => ?_⟩
  simp only [decodeByte_eq_sysUnrecognised_iff]
  constructor
  · rintro ⟨hlo, hhi⟩
    exact ⟨loThree b, (unrecognisedByte_loThree b hlo hhi).symm⟩
  · rintro ⟨x, rfl⟩
    exact unrecognisedByte_range x

/-! ### An idle block (R101) -/

/-- What a byte that is no channel-voice status byte is answered while no running status is set: a real-time byte its
dispatch (41_realtime_bytes.md R70), a data byte -2 (43_data_bytes.md R88), an unrecognised byte 0 (R100). -/
def idleAnswer (s : State) (b : Byte) : Output :=
  match kindOfRealTime b with
  | some k => dispatched s k 0#8 0#8 0#8
  | none => if isDataByte b then ⟨.badChannelState, []⟩ else ⟨.zero, []⟩

section IdleAnswer
variable {s : State} {b : Byte}

theorem idleAnswer_realTime {k : Kind} (hk : kindOfRealTime b = some k) :
    idleAnswer s b = dispatched s k 0#8 0#8 0#8 := by
  simp only [idleAnswer, hk]

theorem idleAnswer_data (hb : isDataByte b = true) : idleAnswer s b = ⟨.badChannelState, []⟩ := by
  obtain ⟨hk, -⟩ := ranges_of_data b hb
  simp only [idleAnswer, hk, hb, if_true]

theorem idleAnswer_unrecognised (hb : isUnrecognisedByte b = true) : idleAnswer s b = ⟨.zero, []⟩ := by
  obtain ⟨hk, -, hd⟩ := ranges_of_unrecognised b hb
  simp only [idleAnswer, hk, hd, Bool.false_eq_true, if_false]

/-- A byte is of one of four ranges (20_memory.md R39); this is the one that is left when two are ruled out. -/
theorem isUnrecognisedByte_of_not (hk : kindOfRealTime b = none) (hs : isStatusByte b = false)
    (hd : isDataByte b = false) : isUnrecognisedByte b = true := by
  simp [isUnrecognisedByte, isRealTimeByte_of_no_kind hk, hs, hd]

/-- A byte that is no channel-voice status byte leaves an idle block as it is. -/
theorem execReceive_idle (hi : s.initd = true) (hrs : s.rs = none) (hpd : s.pd = []) (hb : isStatusByte b = false) :
    execReceive b s = .next { s with outputs := s.outputs ++ [idleAnswer s b] } := by
  rcases hk : kindOfRealTime b with _ | k
  · cases hd : isDataByte b
    · have hu := isUnrecognisedByte_of_not hk hb hd
      rw [execReceive_of_unrecognised hu, receiveUnrecognised_init hi, idleAnswer_unrecognised hu, ← hrs, ← hpd]
    · rw [execReceive_of_data hd, receiveData_noStatus hi hrs, idleAnswer_data hd]
  · rw [execReceive_realTime hk, receiveRealTime_init hi, idleAnswer_realTime hk]

end IdleAnswer

/-- A stream without channel-voice status bytes leaves an idle block as it is, each byte with its own answer: every byte
is a group of its own in `receiveAll_flatMap`. -/
theorem receiveAll_idle {s : State} {bs : List Byte} (hi : s.initd = true) (hrs : s.rs = none) (hpd : s.pd = [])
    (hbs : ∀ b ∈ bs, isStatusByte b = false) :
    receiveAll bs s = .next { s with outputs := s.outputs ++ bs.map (idleAnswer s) } := by
  lift bs to List { b : Byte // isStatusByte b = false } using hbs
  rw [List.map_map, List.map_eq_flatMap, List.map_eq_flatMap]
  exact receiveAll_flatMap (fun b os => receiveAll_cons
    (execReceive_idle (s := { s with outputs := os }) hi hrs hpd b.property) []) bs s.outputs

/-- Settles O30: the outputs are the bytes' answers in an idle block, one for one. -/
theorem nothingAssemblesUntilAStatusByte : Obligations.NothingAssemblesUntilAStatusByte := by
  intro bs s hi hrs hpd hbs
  refine ⟨bs.map (idleAnswer s), receiveAll_idle hi hrs hpd hbs, List.length_map _, fun p hp => ?_⟩
  have hanswer : p.2 = idleAnswer s p.1 := by
    rw [← List.map_prod_left_eq_zip, List.mem_map] at hp
    obtain ⟨b, -, rfl⟩ := hp
    rfl
  rw [hanswer]
  exact ⟨idleAnswer_data, idleAnswer_unrecognised, fun _ => idleAnswer_realTime⟩

end Sys2Proof.Machine
end

section
/-! The statements of 60_exceptions.md. -/

namespace Sys2Proof.Machine

/-! ### Which operations raise which error (R103, R104) -/

/-- The error an operation of a class raises in a state, if any: REGISTER's for a kind that is not one of the 15, a data
byte's without a running status. -/
def OpClass.error : OpClass → State → Option Error
  | .register kind _, _ => if 15 ≤ kind.toNat then some .badEventHandler else none
  | .data _, s => if s.rs = none then some .badChannelState else none
  | .init, _ | .realTime, _ | .status _, _ | .unrecognised, _ => none

theorem OpClass.error_eq_badChannelState_iff {c : OpClass} {s : State} :
    c.error s = some .badChannelState ↔ (∃ d, c = .data d) ∧ s.rs = none := by
  cases c with
  | register | data | init | realTime | status | unrecognised => simp [OpClass.error]

theorem OpClass.error_eq_badEventHandler_iff {c : OpClass} {s : State} :
    c.error s = some .badEventHandler ↔ ∃ kind h, c = .register kind h ∧ 15 ≤ kind.toNat := by
  cases c with
  | register | data | init | realTime | status | unrecognised => simp [OpClass.error]

/-- An error raised is among the results of its class (R105). -/
theorem OpClass.error_result_mem {c : OpClass} {s : State} {e : Error} (he : c.error s = some e) :
    e.result ∈ c.results := by
  cases e with
  | badEventHandler =>
    obtain ⟨kind, h, rfl, -⟩ := OpClass.error_eq_badEventHandler_iff.mp he
    simp [OpClass.results, Error.result]
  | badChannelState =>
    obtain ⟨⟨d, rfl⟩, -⟩ := OpClass.error_eq_badChannelState_iff.mp he
    simp [OpClass.results, Error.result]

/-- Only REGISTER itself is of REGISTER's class. -/
theorem opClass_eq_register_iff {i : Instr} {kind : BitVec 8} {h : Option Handler} :
    opClass i = .register kind h ↔ i = .register kind h := by
  cases i with
  | receive b => simp [opClass, byteClass_ne_register]
  | register | data | noteOff | noteOn | polyAftertouch | controlChange | programChange | channelAftertouch | pitchBend
  | sysUnrecognised | rtClock | rtF9 | rtStart | rtContinue | rtStop | rtFD | rtActiveSense | rtReset | init =>
    simp [opClass]

/-- The errors are the negative results (30_encoding.md R57). -/
theorem Error.result_toInt_neg (e : Error) : e.result.toInt < 0 := by cases e <;> decide

theorem Error.result_injective : ∀ {e e' : Error}, e.result = e'.result → e = e'
  | .badEventHandler, .badEventHandler, _ | .badChannelState, .badChannelState, _ => rfl

/-! ### What an operation answers (R105) -/

/-- The result of a dispatch counts the handler invoked. -/
theorem dispatched_result_eq_count (s : State) (k : Kind) (ch d1 d2 : Byte) :
    (dispatched s k ch d1 d2).result = countResult (s.slot k).isSome := by
  unfold dispatched
  cases s.slot k <;> rfl

theorem countResult_toInt_nonneg (up : Bool) : 0 ≤ (countResult up).toInt := by cases up <;> decide

section Answer
variable {c : OpClass} {s t : State} {o : Output}

/-- A data byte raises -2 without a running status, and else answers a count. -/
theorem DataStep.error_or_count {d : Byte} (h : DataStep d s t) :
    (s.rs = none ∧ t = s.answer .badChannelState []) ∨
      (s.rs ≠ none ∧ ∃ o up, t.outputs = s.outputs ++ [o] ∧ o.result = countResult up) := by
  cases h with
  | noStatus hn ht => exact .inl ⟨hn, ht⟩
  | first b _ hb _ _ _ ht => exact .inr ⟨by simp [hb], ⟨.zero, []⟩, false, by rw [ht], rfl⟩
  | second b _ _ hb _ _ _ ht | only b _ hb _ _ _ ht =>
    exact .inr ⟨by simp [hb], _, _, by rw [ht], dispatched_result_eq_count ..⟩

/-- What completes has raised the error of its class and written nothing but the answer, or has raised none and answers
one of the counts of its class. -/
theorem ClassStep.error_or_count (h : ClassStep c s t) :
    (∃ e, c.error s = some e ∧ t = s.answer e.result []) ∨
      (c.error s = none ∧ ∃ o, t.outputs = s.outputs ++ [o] ∧ 0 ≤ o.result.toInt ∧ o.result ∈ c.results) := by
  cases h with
  | badKind _ hk =>
    exact .inl ⟨.badEventHandler, if_pos ((Kind.ofCode_eq_none_iff _).mp hk), rfl⟩
  | registered _ hk =>
    have hlt := fun hle => Option.some_ne_none _ (hk.symm.trans ((Kind.ofCode_eq_none_iff _).mpr hle))
    exact .inr ⟨if_neg hlt, _, rfl, by decide, .head _⟩
  | init | status | unrecognised => exact .inr ⟨rfl, _, rfl, by decide, .head _⟩
  | realTime _ k =>
    refine .inr ⟨rfl, _, rfl, ?_⟩
    rw [dispatched_result_eq_count]
    exact ⟨countResult_toInt_nonneg _, by cases (s.slot k).isSome <;> simp [countResult, OpClass.results]⟩
  | data _ hd =>
    obtain ⟨hn, ht⟩ | ⟨hs, o, up, ho, hr⟩ := hd.error_or_count
    · exact .inl ⟨.badChannelState, if_pos hn, ht⟩
    · refine .inr ⟨if_neg hs, o, ho, ?_⟩
      rw [hr]
      exact ⟨countResult_toInt_nonneg up, by cases up <;> simp [countResult, OpClass.results]⟩

/-- The two ways, told of any output by which the transcript is seen to grow. -/
theorem ClassStep.output_error_or_count (h : ClassStep c s t) (ho : t.outputs = s.outputs ++ [o]) :
    (∃ e, c.error s = some e ∧ o = ⟨e.result, []⟩ ∧ t = s.answer e.result []) ∨
      (c.error s = none ∧ 0 ≤ o.result.toInt ∧ o.result ∈ c.results) := by
  obtain ⟨e, he, rfl⟩ | ⟨hn, o', ho', hr⟩ := h.error_or_count
  · exact .inl ⟨e, he, by simpa using ho.symm, rfl⟩
  · obtain rfl : o' = o := by simpa [ho'] using ho
    exact .inr ⟨hn, hr⟩

/-- An error is answered exactly when the operation raises it. -/
theorem ClassStep.result_eq_error_iff (h : ClassStep c s t) (ho : t.outputs = s.outputs ++ [o]) (e : Error) :
    o.result = e.result ↔ c.error s = some e := by
  obtain ⟨e', he, rfl, -⟩ | ⟨hn, hr, -⟩ := h.output_error_or_count ho
  · rw [he, Option.some_inj]
    exact ⟨Error.result_injective, congrArg Error.result⟩
  · refine ⟨fun hre => ?_, fun he => by simp [hn] at he⟩
    have hneg := e.result_toInt_neg
    rw [← hre] at hneg
    omega

/-- A negative answer is all that an operation wrote, and it has no event (R109). -/
theorem ClassStep.eq_of_negative (h : ClassStep c s t) (ho : t.outputs = s.outputs ++ [o]) (hr : o.result.toInt < 0) :
    t = { s with outputs := s.outputs ++ [o] } ∧ o.events = [] := by
  obtain ⟨e, -, rfl, ht⟩ | ⟨-, hr', -⟩ := h.output_error_or_count ho
  · exact ⟨ht, rfl⟩
  · omega

/-- The error `e` is all that an operation answering it wrote. -/
theorem ClassStep.eq_of_error (h : ClassStep c s t) (ho : t.outputs = s.outputs ++ [o]) {e : Error}
    (hr : o.result = e.result) : t = { s with outputs := s.outputs ++ [⟨e.result, []⟩] } := by
  obtain ⟨ht, hes⟩ := h.eq_of_negative ho (hr ▸ e.result_toInt_neg)
  rw [ht, ← hr, ← hes]

theorem ClassStep.result_mem (h : ClassStep c s t) (ho : t.outputs = s.outputs ++ [o]) : o.result ∈ c.results := by
  obtain ⟨e, he, rfl, -⟩ | ⟨-, -, hr⟩ := h.output_error_or_count ho
  · exact OpClass.error_result_mem he
  · exact hr

end Answer

/-- Settles O39: a negative result is one of the two errors, and raising one writes nothing else. -/
theorem errorsChangeNothing : Obligations.ErrorsChangeNothing :=
  fun _ _ _ _ h ho hr => (exec_next h).eq_of_negative ho hr

/-- Settles O23: -2 is answered exactly when the operation raises it, which a data byte does without a running status. -/
theorem badChannelStateExactlyThen : Obligations.BadChannelStateExactlyThen := by
  refine ⟨fun i s t o h ho => ?_, fun i s t o h ho hr => (exec_next h).eq_of_error ho (e := .badChannelState) hr⟩
  exact ((exec_next h).result_eq_error_iff ho .badChannelState).trans OpClass.error_eq_badChannelState_iff

/-- Settles O32: -1 is answered exactly when the operation raises it, which REGISTER does for a kind from 15 on. -/
theorem badEventHandlerExactlyThen : Obligations.BadEventHandlerExactlyThen := by
  refine ⟨fun i s t o h ho => ?_, fun i s t o h ho hr => (exec_next h).eq_of_error ho (e := .badEventHandler) hr⟩
  simp only [← opClass_eq_register_iff]
  exact ((exec_next h).result_eq_error_iff ho .badEventHandler).trans OpClass.error_eq_badEventHandler_iff

/-! ### Every listed result occurs (R105) -/

/-- A block after INIT with nothing buffered, a given running status, and the same in every slot. -/
def uniformBlock (rs : Option Byte) (slot : Option Handler) : State :=
  { State.reset with rs := rs, ht := Vector.replicate Config.nKinds slot }

/-- An operation of class `c` that completes from `s` answers `r`. -/
def Answers (c : OpClass) (s : State) (r : Result) : Prop :=
  ∀ t, ClassStep c s t → ∃ o, t.outputs = s.outputs ++ [o] ∧ o.result = r

/-- Whatever kind a uniform block dispatches, the answer is the same. -/
theorem dispatched_uniformBlock_result (rs : Option Byte) (slot : Option Handler) (k : Kind) (ch d1 d2 : Byte) :
    (dispatched (uniformBlock rs slot) k ch d1 d2).result = countResult slot.isSome := by
  rw [dispatched_result_eq_count]
  simp [uniformBlock, State.slot]

theorem uniformBlock_atRest {rs : Option Byte} (hrs : ∀ b ∈ rs, isStatusByte b = true) (slot : Option Handler) :
    AtRest (uniformBlock rs slot) :=
  atRest_of_pd_nil (fun b hb => isStatusByte_iff.mp (hrs b hb)) rfl

section Occurs
variable {s t : State}

/-- At rest after INIT every operation completes (R116). -/
theorem exec_completes_of_atRest (hi : s.initd = true) (hs : AtRest s) (i : Instr) : ∃ t, exec i s = .next t :=
  exec_completes hi fun d _ => receiveData_completes hs hi d

/-- With a one-data-byte running status every data byte dispatches (43_data_bytes.md R91). -/
theorem DataStep.dispatches {d b : Byte} (h : DataStep d s t) (hrs : s.rs = some b) (he : expected b = 1) :
    ∃ k ch, t.outputs = s.outputs ++ [dispatched s k ch d 0#8] := by
  cases h with
  | noStatus hn => simp [hrs] at hn
  | first b' _ hb _ he' | second b' _ _ hb _ he' =>
    obtain rfl : b = b' := Option.some.inj (hrs.symm.trans hb)
    omega
  | only b' k _ _ _ _ ht => exact ⟨k, channelOf b', by rw [ht]⟩

theorem answers_of_results_singleton {c : OpClass} {r : Result} (hc : c.results = [r]) : Answers c s r := by
  intro t h
  obtain ⟨o, ho, -⟩ := h.output
  exact ⟨o, ho, by simpa [hc] using h.result_mem ho⟩

theorem answers_realTime (rs : Option Byte) (slot : Option Handler) :
    Answers .realTime (uniformBlock rs slot) (countResult slot.isSome) := by
  intro t h
  cases h with
  | realTime _ k => exact ⟨_, rfl, dispatched_uniformBlock_result ..⟩

theorem answers_data {b : Byte} (hb : expected b = 1) (d : Byte) (slot : Option Handler) :
    Answers (.data d) (uniformBlock (some b) slot) (countResult slot.isSome) := by
  intro t h
  cases h with
  | data _ hd =>
    obtain ⟨k, ch, ho⟩ := hd.dispatches rfl hb
    exact ⟨_, ho, dispatched_uniformBlock_result ..⟩

theorem answers_of_error {c : OpClass} {e : Error} (he : c.error s = some e) : Answers c s e.result := by
  intro t h
  obtain ⟨o, ho, -⟩ := h.output
  exact ⟨o, ho, (h.result_eq_error_iff ho e).mpr he⟩

end Occurs

/-- Each result of a class other than REGISTER's is answered from a block at rest: a count for the slots' content, -2
without a running status. -/
theorem OpClass.result_occurs {c : OpClass} {r : Result} (hr : r ∈ c.results) (hc : ∀ kind h, c ≠ .register kind h) :
    ∃ s, s.initd = true ∧ AtRest s ∧ Answers c s r := by
  have hidle : ∀ slot, AtRest (uniformBlock none slot) := uniformBlock_atRest (by simp)
  have hopen : ∀ slot, AtRest (uniformBlock (some 0xC0#8) slot) := uniformBlock_atRest (by decide)
  cases c with
  | register kind h => exact absurd rfl (hc kind h)
  | init | status | unrecognised =>
    obtain rfl := List.mem_singleton.mp hr
    exact ⟨_, rfl, hidle none, answers_of_results_singleton rfl⟩
  | realTime =>
    simp only [OpClass.results, List.mem_cons, List.not_mem_nil, or_false] at hr
    obtain rfl | rfl := hr
    · exact ⟨_, rfl, hidle none, answers_realTime none none⟩
    · exact ⟨_, rfl, hidle (some ⟨0⟩), answers_realTime none (some ⟨0⟩)⟩
  | data d =>
    simp only [OpClass.results, List.mem_cons, List.not_mem_nil, or_false] at hr
    obtain rfl | rfl | rfl := hr
    · exact ⟨_, rfl, hopen none, answers_data (by decide) d none⟩
    · exact ⟨_, rfl, hopen (some ⟨0⟩), answers_data (by decide) d (some ⟨0⟩)⟩
    · exact ⟨_, rfl, hidle none, answers_of_error (e := .badChannelState) rfl⟩

/-- Settles O38: the result an operation adds is one of its class, and from the block in which a listed result is
answered the operation completes, with that result. -/
theorem possibleResults : Obligations.PossibleResults := by
  refine ⟨fun i s t h => ?_, fun i r hr hreg => ?_⟩
  · obtain ⟨o, ho, -⟩ := (exec_next h).output
    exact ⟨o, ho, (exec_next h).result_mem ho⟩
  · obtain ⟨s, hi, hs, hans⟩ := OpClass.result_occurs hr fun kind h => mt opClass_eq_register_iff.mp (hreg kind h)
    obtain ⟨t, ht⟩ := exec_completes_of_atRest hi hs i
    obtain ⟨o, ho, rfl⟩ := hans t (exec_next ht)
    exact ⟨s, t, o.events, hi, hs, ht, ho⟩

end Sys2Proof.Machine
end

section
/-! The round trip of instructions and wire words (30_encoding.md sections 1 to 5). -/

namespace Sys2Proof.Machine

/-! ### Decoding (R45, R51, R58) -/

/-- A status byte decodes to the class of its nibble and channel, when the nibble belongs to a kind (R51). -/
theorem decodeByte_statusByte :
    ∀ n c : BitVec 4, ∀ i ∈ decodeStatus n c, decodeByte (statusByte n c) = i := by decide

/-- REGISTER's handler operand comes back from its valid bit and tag, whatever the ports held (R58). -/
theorem handler_withHandler (p : PortWord) (h : Option Handler) : (p.withHandler h).handler = h := by
  cases h <;> rfl

/-- A port word is refused exactly for the one selection that is no operation (R58, R60). -/
theorem decodePort_eq_error_iff {p : PortWord} : decodePort p = .error .opselWithoutOperation ↔ p.opsel = 0b11#2 := by
  have hsel : ∀ x : BitVec 2, x = 0b00#2 ∨ x = 0b01#2 ∨ x = 0b10#2 ∨ x = 0b11#2 := by decide
  rcases hsel p.opsel with h | h | h | h <;> simp [decodePort, h]

theorem decode_encode (i : Instr) : decode (encode i) = .ok i := by
  cases i with
  | data d => exact congrArg Except.ok (decodeByte_dataByte d)
  | noteOff c | noteOn c | polyAftertouch c | controlChange c | programChange c | channelAftertouch c | pitchBend c =>
    exact congrArg Except.ok (decodeByte_statusByte _ c _ rfl)
  | sysUnrecognised x => exact congrArg Except.ok (decodeByte_unrecognisedByte x)
  | rtClock | rtF9 | rtStart | rtContinue | rtStop | rtFD | rtActiveSense | rtReset | init | receive b => rfl
  | register kind h => cases h <;> rfl

/-! ### Well-formedness (00_scope.md R6) -/

/-- An instruction's operands fit `W`-bit tags exactly when its encoding fits such wires: a registered handler's tag is
the word's, and any other port word has the tag 0, which fits every width. -/
theorem wellFormed_eq_fits (W : Nat) (i : Instr) : i.wellFormed W = (encode i).fits W := by
  have hzero : decide (0 < 2 ^ W) = true := decide_eq_true (Nat.two_pow_pos W)
  cases i with
  | data | noteOff | noteOn | polyAftertouch | controlChange | programChange | channelAftertouch | pitchBend
  | sysUnrecognised | rtClock | rtF9 | rtStart | rtContinue | rtStop | rtFD | rtActiveSense | rtReset => rfl
  | init | receive b => exact congrArg (legalHandlerW W && ·) hzero.symm
  | register kind h =>
    cases h with
    | none => exact congrArg (legalHandlerW W && ·) hzero.symm
    | some h => rfl

/-- Settles O10: the round trip class by class, and the width 0 is not legal whatever the operands. -/
theorem decodeOfEncode : Obligations.DecodeOfEncode :=
  fun i => ⟨decode_encode i, fun W => wellFormed_eq_fits W i, rfl⟩

end Sys2Proof.Machine
end

section
/-! The numbering and the ranges of 30_encoding.md sections 1, 2, 5 and 7, and the words of its opcode table. -/

namespace Sys2Proof.Machine

/-! ### Bytes and the opcode table (R45) -/

/-- Settles O11: the decoder drops no bit of a byte. -/
theorem encodeOfDecodedByte : Obligations.EncodeOfDecodedByte := encode_decodeByte

/-- Settles O12, on each of the 256 bytes. -/
theorem everyByteMatchesOneRow : Obligations.EveryByteMatchesOneRow := by
  unfold Obligations.EveryByteMatchesOneRow
  decide

/-- Settles O15, word by word. -/
theorem specWordsDecode : Obligations.SpecWordsDecode := by
  unfold Obligations.SpecWordsDecode
  decide

/-! ### The four ranges (20_memory.md R39) -/

section Range
variable {b : Byte}

theorem byteClass_of_realTime (hb : isRealTimeByte b = true) : byteClass b = .realTime := if_pos hb

theorem byteClass_of_status (hb : isStatusByte b = true) : byteClass b = .status b := by
  simp [byteClass, isRealTimeByte_of_no_kind (kindOfRealTime_of_status b hb), hb]

theorem byteClass_of_data (hb : isDataByte b = true) : byteClass b = .data b := by
  obtain ⟨hk, hs⟩ := ranges_of_data b hb
  simp [byteClass, isRealTimeByte_of_no_kind hk, hs, hb]

theorem byteClass_of_unrecognised (hb : isUnrecognisedByte b = true) : byteClass b = .unrecognised := by
  obtain ⟨hk, hs, hd⟩ := ranges_of_unrecognised b hb
  simp [byteClass, isRealTimeByte_of_no_kind hk, hs, hd]

theorem isDataByte_of_le (h : b.toNat ≤ 0x7F) : isDataByte b = true :=
  decide_eq_true (BitVec.lt_def.mpr (Nat.lt_succ_of_le h))

theorem isStatusByte_of_mem_range (hlo : 0x80 ≤ b.toNat) (hhi : b.toNat ≤ 0xEF) : isStatusByte b = true :=
  isStatusByte_iff.mpr ⟨BitVec.le_def.mpr hlo, BitVec.le_def.mpr hhi⟩

theorem isRealTimeByte_of_le (h : 0xF8 ≤ b.toNat) : isRealTimeByte b = true := decide_eq_true (BitVec.le_def.mpr h)

theorem isUnrecognisedByte_of_mem_range (hlo : 0xF0 ≤ b.toNat) (hhi : b.toNat ≤ 0xF7) :
    isUnrecognisedByte b = true := by
  rw [← unrecognisedByte_loThree b hlo hhi]
  exact isUnrecognisedByte_unrecognisedByte _

end Range

/-- Settles O14: each range is the range of its test, and the tests give the class. -/
theorem fourRangesClassifyEveryByte : Obligations.FourRangesClassifyEveryByte := fun b =>
  ⟨fun h => byteClass_of_data (isDataByte_of_le h),
    fun hlo hhi => byteClass_of_status (isStatusByte_of_mem_range hlo hhi),
    fun hlo hhi => byteClass_of_unrecognised (isUnrecognisedByte_of_mem_range hlo hhi),
    fun h => byteClass_of_realTime (isRealTimeByte_of_le h), opClass_decodeByte b⟩

/-! ### Kinds and results (R50, R51, R57) -/

/-- The index of a real-time byte's kind is its distance from `RT_BASE` (R59). -/
theorem index_of_kindOfRealTime {b : Byte} {k : Kind} (hk : kindOfRealTime b = some k) :
    k.index.val = (b - Config.rtBase).toNat := by
  rw [kindOfRealTime, if_pos (isRealTimeByte_of_kind hk)] at hk
  exact Kind.index_of_ofIndex hk

theorem sub_rtBase_toNat {b : Byte} (h : 0xF8 ≤ b.toNat) : (b - Config.rtBase).toNat = b.toNat % 8 := by
  have hb : b.toNat < 256 := b.isLt
  have hle : Config.rtBase ≤ b := BitVec.le_def.mpr h
  rw [BitVec.toNat_sub_of_le hle]
  change b.toNat - 0xF8 = b.toNat % 8
  omega

theorem hiNibble_toNat (b : Byte) : (hiNibble b).toNat = b.toNat / 16 := by
  have hb : b.toNat < 256 := b.isLt
  rw [hiNibble, BitVec.extractLsb'_toNat, Nat.shiftRight_eq_div_pow]
  omega

/-- Settles O16: a kind and its code name each other, and the index a byte's kind has is read from the byte. -/
theorem kindNumbering : Obligations.KindNumbering := by
  refine ⟨Kind.ofCode_code, Kind.ofCode_eq_none_iff, fun _ _ => Kind.ofCode_eq_some_iff.mp, fun b h => ?realTime,
    fun b hlo hhi => ?status⟩
  case realTime =>
    obtain ⟨k, hk⟩ := Option.isSome_iff_exists.mp ((kindOfRealTime_isSome b).trans (isRealTimeByte_of_le h))
    exact ⟨k, hk, (index_of_kindOfRealTime hk).trans (sub_rtBase_toNat h)⟩
  case status =>
    obtain ⟨k, hk⟩ := Option.isSome_iff_exists.mp
      ((kindOfStatus_isSome b).trans (isStatusByte_of_mem_range hlo hhi))
    exact ⟨k, hk, (index_of_kindOfStatus hk).trans (hiNibble_toNat b)⟩

/-- Settles O17, result by result. -/
theorem resultCodes : Obligations.ResultCodes := by
  unfold Obligations.ResultCodes
  decide

end Sys2Proof.Machine
end

section
/-! What a step does with the next request, refusal or operation (70_reset_and_hazards.md section 5), and that an
operation does not see the requests behind it (20_memory.md R40). -/

namespace Sys2Proof.Machine

/-! ### The next request (30_encoding.md R58, 70_reset_and_hazards.md R120) -/

section Fetch
variable {H : Type} {s : State H} {w : WireWord} {rest : List Request}

theorem fetch_of_idle (hp : s.pending = []) : fetch s = .idle := by
  simp only [fetch, hp]

theorem fetch_of_handler (hp : s.pending = ⟨.handler, w⟩ :: rest) : fetch s = .refused .fromHandler := by
  simp only [fetch, hp]

theorem fetch_of_decode_error {e : DecodeError} (hp : s.pending = ⟨.host, w⟩ :: rest) (hd : decode w = .error e) :
    fetch s = .refused .noSuchOperation := by
  cases e
  simp only [fetch, hp, hd]

theorem fetch_of_decode_ok {i : Instr} (hp : s.pending = ⟨.host, w⟩ :: rest) (hd : decode w = .ok i) :
    fetch s = .run i { s with pending := rest } := by
  simp only [fetch, hp, hd]

/-- The four things the next request can amount to. -/
theorem fetch_cases (s : State H) :
    s.pending = [] ∨ (∃ w rest, s.pending = ⟨.handler, w⟩ :: rest) ∨
      (∃ w rest e, s.pending = ⟨.host, w⟩ :: rest ∧ decode w = .error e) ∨
      ∃ w rest i, s.pending = ⟨.host, w⟩ :: rest ∧ decode w = .ok i := by
  rcases hp : s.pending with _ | ⟨⟨origin, w⟩, rest⟩
  · exact .inl rfl
  · cases origin with
    | handler => exact .inr (.inl ⟨w, rest, rfl⟩)
    | host =>
      cases hd : decode w with
      | error e => exact .inr (.inr (.inl ⟨w, rest, e, rfl, hd⟩))
      | ok i => exact .inr (.inr (.inr ⟨w, rest, i, rfl, hd⟩))

end Fetch

section Step
variable {s : State} {w : WireWord} {rest : List Request}

theorem step_of_idle (hp : s.pending = []) : step s = .next s := by
  simp only [step, fetch_of_idle hp]

theorem step_of_decode_error {e : DecodeError} (hp : s.pending = ⟨.host, w⟩ :: rest) (hd : decode w = .error e) :
    step s = .refused .noSuchOperation := by
  simp only [step, fetch_of_decode_error hp hd]

theorem step_of_decode_ok {i : Instr} (hp : s.pending = ⟨.host, w⟩ :: rest) (hd : decode w = .ok i) :
    step s = exec i { s with pending := rest } := by
  simp only [step, fetch_of_decode_ok hp hd]

/-- A word requested next is what the next step performs, on the state as it was. -/
theorem step_request {i : Instr} (hd : decode w = .ok i) : step (s.request w) = exec i s :=
  step_of_decode_ok rfl hd

end Step

/-! ### Operations and the requests behind them (log 2) -/

/-- The outcome with other requests pending. -/
def withPending (rq : List Request) : Outcome → Outcome
  | .next s => .next { s with pending := rq }
  | .fault r => .fault r
  | .refused r => .refused r

section Pending
variable {s t s' : State}

/-- A state is its block and its ports. -/
theorem SameBlock.eq_of_ports (h : SameBlock s t) (hp : s.pending = t.pending) (ho : s.outputs = t.outputs) :
    s = t := by
  obtain ⟨hrs, hpd, hht, hi⟩ := h
  cases s
  cases t
  simp_all

theorem SameAnswer.of_refused {r : Refusal} {y : Outcome} (h : SameAnswer s t (.refused r) y) : y = .refused r := by
  cases y with
  | next t' => exact h.elim
  | fault f => exact h.elim
  | refused r' => exact congrArg _ h.symm

/-- What an operation does is the same whatever is requested behind it: it sees the block alone (10_state.md R19) and
leaves the input port as it was. -/
theorem exec_withPending (i : Instr) (s : State) (rq : List Request) :
    exec i { s with pending := rq } = withPending rq (exec i s) := by
  have hblock : SameBlock s { s with pending := rq } := ⟨rfl, rfl, rfl, rfl⟩
  have hsame := exec_sameAnswer hblock i
  cases hx : exec i s with
  | next t =>
    obtain ⟨t', o, hx', hb, hs, ht⟩ := SameAnswer.of_next (hx ▸ hsame)
    have hp : t'.pending = rq := (exec_next hx').pending
    rw [hx', withPending, SameBlock.eq_of_ports (s := { t with pending := rq }) hb hp.symm (hs.trans ht.symm)]
  | fault f => cases f
  | refused r => exact SameAnswer.of_refused (hx ▸ hsame)

end Pending

/-! ### The statements about single steps -/

/-- Settles O4: the host's request is taken and performed. -/
theorem stepRunsDecodedRequest : Obligations.StepRunsDecodedRequest := fun _ _ _ _ => step_of_decode_ok

/-- A table word that decodes is a wire word that decodes. -/
theorem tableWord_of_decodeTableWord {nbits n : Nat} {i : Instr} (h : decodeTableWord nbits n = some i) :
    ∃ w, tableWord nbits n = some w ∧ decode w = .ok i := by
  unfold decodeTableWord at h
  split at h
  · cases h
  · rename_i w hw
    refine ⟨w, hw, ?_⟩
    cases hd : decode w with
    | error e => simp [hd, Except.toOption] at h
    | ok j => simpa [hd, Except.toOption] using h

/-- Settles O5: a table word that decodes is placed as a request, which the step performs. -/
theorem placedTableWordRunsNext : Obligations.PlacedTableWordRunsNext := by
  intro s nbits n i h
  obtain ⟨w, hw, hd⟩ := tableWord_of_decodeTableWord h
  simpa only [State.withFetchWord, hw] using step_request hd

/-- Settles O6. -/
theorem nothingRequestedChangesNothing : Obligations.NothingRequestedChangesNothing := fun _ => step_of_idle

/-- Settles O7: the origin is looked at first. -/
theorem handlerRequestsAreRefused : Obligations.HandlerRequestsAreRefused := fun _ _ _ => step_of_handler_request

/-- Settles O8: the decoder's one error is the selection 11, and the step refuses what the decoder does. -/
theorem opselElevenIsRefused : Obligations.OpselElevenIsRefused := by
  refine ⟨fun s p rest hp h => step_of_decode_error hp (decodePort_eq_error_iff.mpr h), fun w => ?_⟩
  cases w with
  | stream b => simp [decode]
  | port p => simp [decode, decodePort_eq_error_iff]

/-! ### Runs (70_reset_and_hazards.md R128) -/

/-- A request is performed as if any others were behind it. -/
theorem exec_eq_withPending_step {s : State} {w : WireWord} {behind : List Request} {i : Instr}
    (hp : s.pending = ⟨.host, w⟩ :: behind) (hd : decode w = .ok i) (rest : List Request) :
    exec i { s with pending := rest } = withPending rest (step s) := by
  rw [step_of_decode_ok hp hd]
  exact exec_withPending i { s with pending := behind } rest

/-- A step that completes has taken its request and no other. -/
theorem step_pending {s t : State} {r : Request} {rest : List Request} (hp : s.pending = r :: rest)
    (h : step s = .next t) : t.pending = rest := by
  obtain ⟨hnil, -⟩ | ⟨i, w, rest', hp', -, hx⟩ := step_next h
  · simp [hp] at hnil
  · obtain ⟨-, rfl⟩ := List.cons.inj (hp.symm.trans hp')
    exact (exec_next hx).pending

/-- Settles O9, by induction on the requests: each is performed as if nothing but `rest` were behind it, and where it
completes both runs go on from its state, where it is refused both end. -/
theorem runPerformsRequestsInOrder : Obligations.RunPerformsRequestsInOrder := by
  intro s ws is rest hp hws
  induction ws generalizing s is with
  | nil =>
    obtain rfl : is = [] := by simpa using hws.symm
    obtain rfl : s.pending = rest := hp
    rfl
  | cons w ws ih =>
    obtain _ | ⟨i, is⟩ := is
    · simp at hws
    obtain ⟨hd, hws⟩ : decode w = .ok i ∧ ws.map decode = is.map .ok := by simpa using hws
    have hrest := exec_eq_withPending_step hp hd rest
    rw [List.length_cons]
    cases hx : step s with
    | next t =>
      rw [hx] at hrest
      rw [runSteps_succ_next hx, execAll_cons hrest]
      exact ih t is (step_pending hp hx) hws
    | fault f => cases f
    | refused r =>
      rw [hx] at hrest
      rw [runSteps_succ_refused hx]
      simp only [execAll, hrest, withPending]

/-! ### Licensed runs (60_exceptions.md R116) -/

/-- The request is one the spec gives a meaning to, `up` saying whether INIT has been performed. -/
def Request.Allowed (up : Bool) (r : Request) : Prop :=
  r.origin = .host ∧ ∃ i, decode r.word = .ok i ∧ (up = true ∨ i = .init)

/-- A list is licensed when its first request is allowed and the rest is licensed after INIT. -/
theorem licensed_cons_iff {up : Bool} {r : Request} {rest : List Request} :
    Licensed up (r :: rest) ↔ r.Allowed up ∧ Licensed true rest := by
  constructor
  · rintro ⟨ho, i, hd, hi, hrest⟩
    exact ⟨⟨ho, i, hd, hi⟩, hrest⟩
  · rintro ⟨⟨ho, i, hd, hi⟩, hrest⟩
    exact ⟨ho, i, hd, hi, hrest⟩

/-- Before INIT every other operation is refused (70_reset_and_hazards.md R118). -/
theorem exec_before {i : Instr} {s : State} (hs : s.initd = false) (hi : i ≠ .init) :
    exec i s = .refused .beforeInit := by
  cases i with
  | init => exact absurd rfl hi
  | data | noteOff | noteOn | polyAftertouch | controlChange | programChange | channelAftertouch | pitchBend
  | sysUnrecognised | rtClock | rtF9 | rtStart | rtContinue | rtStop | rtFD | rtActiveSense | rtReset | register
  | receive => exact whenInit_before hs _

/-- Settles O41: every meaning but INIT's is guarded, and what completes leaves an initialised block. -/
theorem onlyInitBeforeInit : Obligations.OnlyInitBeforeInit :=
  ⟨fun _ _ => exec_before, fun _ _ _ h => (exec_next h).initd⟩

/-- The three refusals of 60_exceptions.md R116. -/
def Refusal.Spec (r : Refusal) : Prop := r = .beforeInit ∨ r = .fromHandler ∨ r = .noSuchOperation

section Licensed
variable {s : State} {r : Request} {rest : List Request}

/-- At rest, an allowed request is performed: the block is initialised afterwards and at rest, and has answered once. -/
theorem step_of_allowed (hp : s.pending = r :: rest) (hs : AtRest s) (hr : r.Allowed s.initd) :
    ∃ t o, step s = .next t ∧ t.pending = rest ∧ t.initd = true ∧ AtRest t ∧ t.outputs = s.outputs ++ [o] := by
  obtain ⟨origin, w⟩ := r
  obtain ⟨rfl, i, hd, hi⟩ := hr
  have hstep := step_of_decode_ok hp hd
  have hs' : AtRest { s with pending := rest } := hs
  obtain ⟨t, hx⟩ : ∃ t, exec i { s with pending := rest } = .next t := by
    obtain hi | rfl := hi
    · exact exec_completes_of_atRest (s := { s with pending := rest }) hi hs' i
    · exact ⟨_, rfl⟩
  obtain ⟨o, ho, -⟩ := (exec_next hx).output
  exact ⟨t, o, hstep.trans hx, (exec_next hx).pending, (exec_next hx).initd, exec_atRest hx hs', ho⟩

/-- A request that is not allowed is refused, by its origin, its selection or for want of INIT. -/
theorem step_of_not_allowed (hp : s.pending = r :: rest) (hr : ¬ r.Allowed s.initd) :
    ∃ q : Refusal, step s = .refused q ∧ q.Spec := by
  obtain ⟨origin, w⟩ := r
  cases origin with
  | handler => exact ⟨_, step_of_handler_request hp, .inr (.inl rfl)⟩
  | host =>
    cases hd : decode w with
    | error e => exact ⟨_, step_of_decode_error hp hd, .inr (.inr rfl)⟩
    | ok i =>
      obtain ⟨hi, hne⟩ : ¬ s.initd = true ∧ i ≠ .init := by
        rw [← not_or]
        exact fun h => hr ⟨rfl, i, hd, h⟩
      exact ⟨_, (step_of_decode_ok hp hd).trans (exec_before (Bool.eq_false_of_not_eq_true hi) hne), .inl rfl⟩

end Licensed

/-- A licensed list of requests runs to its end, with one output per request. -/
theorem runSteps_of_licensed {rs : List Request} {s : State} (hp : s.pending = rs) (hs : AtRest s)
    (hl : Licensed s.initd rs) :
    ∃ t, runSteps rs.length s = .next t ∧ t.pending = [] ∧ AtRest t ∧
      t.outputs.length = s.outputs.length + rs.length := by
  induction rs generalizing s with
  | nil => exact ⟨s, rfl, hp, hs, rfl⟩
  | cons r rest ih =>
    obtain ⟨hr, hrest⟩ := licensed_cons_iff.mp hl
    obtain ⟨t, o, hstep, hp', hi, ht, ho⟩ := step_of_allowed hp hs hr
    obtain ⟨u, hrun, hpu, hu, hlen⟩ := ih hp' ht (hi ▸ hrest)
    refine ⟨u, (runSteps_succ_next hstep _).trans hrun, hpu, hu, ?_⟩
    rw [hlen, ho, List.length_append, List.length_singleton, List.length_cons]
    omega

/-- Any other list is refused at its first request that is not allowed. -/
theorem runSteps_of_not_licensed {rs : List Request} {s : State} (hp : s.pending = rs) (hs : AtRest s)
    (hl : ¬ Licensed s.initd rs) : ∃ q : Refusal, runSteps rs.length s = .refused q ∧ q.Spec := by
  induction rs generalizing s with
  | nil => exact absurd trivial hl
  | cons r rest ih =>
    by_cases hr : r.Allowed s.initd
    · obtain ⟨t, -, hstep, hp', hi, ht, -⟩ := step_of_allowed hp hs hr
      have hrest : ¬ Licensed t.initd rest := fun h => hl (licensed_cons_iff.mpr ⟨hr, hi ▸ h⟩)
      obtain ⟨q, hrun, hq⟩ := ih hp' ht hrest
      exact ⟨q, (runSteps_succ_next hstep _).trans hrun, hq⟩
    · obtain ⟨q, hstep, hq⟩ := step_of_not_allowed hp hr
      exact ⟨q, runSteps_succ_refused hstep _, hq⟩

/-- Settles O43, by the two inductions over the requests. -/
theorem licensedRunsComplete : Obligations.LicensedRunsComplete :=
  fun _ hs => ⟨runSteps_of_licensed rfl hs, runSteps_of_not_licensed rfl hs⟩

end Sys2Proof.Machine
end

section
/-! INIT and reset, and the meanings of the byte classes one by one (files 40 to 43 of the spec). -/

namespace Sys2Proof.Machine

/-! ### INIT and reset (10_state.md R28, 40_host_operations_and_registry.md R64) -/

/-- Settles O2: INIT writes every cell, and the ports are what is left of the state before. -/
theorem initCompletesAndResets : Obligations.InitCompletesAndResets := fun _ => rfl

/-- Settles O3: nothing is buffered after reset, and there is no running status. -/
theorem invariantsHoldAtReset : Obligations.InvariantsHoldAtReset :=
  ⟨rfl, atRest_of_pd_nil (fun _ hb => nomatch hb) rfl⟩

/-! ### Real-time bytes (41_realtime_bytes.md R70 to R78) -/

/-- Settles O18: each of the eight is the real-time meaning of its own kind, whose dispatch is told by the slot. -/
theorem realTimeBytesDispatchAndChangeNothing : Obligations.RealTimeBytesDispatchAndChangeNothing := by
  intro p hp s hi
  have hmean : exec p.1 s = receiveRealTime p.2 s := by fin_cases hp <;> rfl
  rw [hmean, receiveRealTime_init hi]
  exact ⟨fun hs => by rw [dispatched_of_empty_slot hs], fun h hs => by rw [dispatched_of_slot hs]⟩

/-! ### Channel voice by its nibble (42_channel_voice_status_bytes.md R80 to R86, 43_data_bytes.md R93 to R99) -/

/-- Settles O21: each of the seven is the status meaning of its own byte, whose nibble gives kind and count. -/
theorem eachStatusKindOpensItsMessage : Obligations.EachStatusKindOpensItsMessage := by
  intro p hp c s hi
  have hmean : exec (p.1 c) s = receiveStatus (statusByte p.2.1 c) s := by fin_cases hp <;> rfl
  obtain ⟨k8, k9, kA, kB, kC, kD, kE⟩ := statusByte_kind c
  obtain ⟨e8, e9, eA, eB, eC, eD, eE⟩ := statusByte_expected c
  refine ⟨hmean.trans (receiveStatus_init hi _), ?_⟩
  fin_cases hp
  exacts [⟨k8, e8⟩, ⟨k9, e9⟩, ⟨kA, eA⟩, ⟨kB, eB⟩, ⟨kC, eC⟩, ⟨kD, eD⟩, ⟨kE, eE⟩]

section Completion
variable {s : State} {n c : BitVec 4} {k : Kind}

/-- The second data byte of a two-data-byte message, its running status given by nibble and channel. -/
theorem exec_data_second (hk : kindOfStatus (statusByte n c) = some k) (he : expected (statusByte n c) = 2)
    (q d : BitVec 7) (hi : s.initd = true) (hrs : s.rs = some (statusByte n c)) (hp : s.pd = [dataByte q]) :
    exec (.data d) s = .next { s with
      pd := [], outputs := s.outputs ++ [dispatched s k (c.zeroExtend 8) (dataByte q) (dataByte d)] } := by
  rw [exec_data, receiveData_second hi hrs hk he hp, statusByte_channel]

/-- The only data byte of a one-data-byte message. -/
theorem exec_data_only (hk : kindOfStatus (statusByte n c) = some k) (he : expected (statusByte n c) = 1)
    (d : BitVec 7) (hi : s.initd = true) (hrs : s.rs = some (statusByte n c)) (hp : s.pd = []) :
    exec (.data d) s = .next { s with
      pd := [], outputs := s.outputs ++ [dispatched s k (c.zeroExtend 8) (dataByte d) 0#8] } := by
  rw [exec_data, receiveData_only hi hrs hk he hp, statusByte_channel]

end Completion

/-- Settles O27: the kind and count of each nibble say which completion it is. -/
theorem eachVoiceKindCompletes : Obligations.EachVoiceKindCompletes := by
  refine ⟨fun p hp c q d s hi hrs hpd => ?two, fun p hp c d s hi hrs hpd => ?one⟩
  all_goals
    obtain ⟨k8, k9, kA, kB, kC, kD, kE⟩ := statusByte_kind c
    obtain ⟨e8, e9, eA, eB, eC, eD, eE⟩ := statusByte_expected c
  case two =>
    obtain ⟨hk, he⟩ : kindOfStatus (statusByte p.1 c) = some p.2 ∧ expected (statusByte p.1 c) = 2 := by
      fin_cases hp
      exacts [⟨k8, e8⟩, ⟨k9, e9⟩, ⟨kA, eA⟩, ⟨kB, eB⟩, ⟨kE, eE⟩]
    exact exec_data_second hk he q d hi hrs hpd
  case one =>
    obtain ⟨hk, he⟩ : kindOfStatus (statusByte p.1 c) = some p.2 ∧ expected (statusByte p.1 c) = 1 := by
      fin_cases hp
      exacts [⟨kC, eC⟩, ⟨kD, eD⟩]
    exact exec_data_only hk he d hi hrs hpd

/-! ### RECEIVE as a whole (40_host_operations_and_registry.md R67, R68) -/

/-- Settles O34: the byte's class means what the pseudocode does. -/
theorem receiveAgreesWithByteClasses : Obligations.ReceiveAgreesWithByteClasses :=
  fun b s => (exec_decodeByte b s).symm

theorem exec_receive (b : Byte) (s : State) : exec (.receive b) s = execReceive b s := rfl

/-- Settles O35: the byte's range picks the meaning, and a data byte's four cases are the parser states of the table. -/
theorem receiveFollowsTransitionTable : Obligations.ReceiveFollowsTransitionTable := by
  intro s b hi
  simp only [exec_receive]
  refine ⟨fun k hk => ?realTime, fun hb => ?status, fun hb => ?unrecognised, fun hb => ?data⟩
  case realTime => exact (execReceive_realTime hk s).trans (receiveRealTime_init hi k)
  case status => exact (execReceive_of_status hb s).trans (receiveStatus_init hi b)
  case unrecognised => exact (execReceive_of_unrecognised hb s).trans (receiveUnrecognised_init hi)
  case data =>
    rw [execReceive_of_data hb]
    exact ⟨fun hrs => receiveData_noStatus hi hrs b, fun r k hrs hk =>
      ⟨fun he hp => receiveData_only hi hrs hk he hp b, fun he hp => receiveData_first hi hrs hk he hp b,
        fun d he hp => receiveData_second hi hrs hk he hp b⟩⟩

end Sys2Proof.Machine
end

section
/-! What an operation does not depend on: ports, handlers, and other streams (10_state.md R19, 92_eei_decisions.md D6,
D17). -/

namespace Sys2Proof.Machine

/-- Settles O44. -/
theorem portsAreNotState : Obligations.PortsAreNotState := fun i _ _ h => exec_sameAnswer h i

/-- Settles O49: the step writes its own block's place in the list. -/
theorem streamsAreIndependent : Obligations.StreamsAreIndependent := by
  intro sys n s t hs hstep
  have hn : n < sys.length := (List.getElem?_eq_some_iff.mp hs).1
  refine ⟨sys.set n t, ?_, List.length_set, List.getElem?_set_self hn, fun m hm => List.getElem?_set_ne hm.symm⟩
  simp only [System.stepAt, hs, hstep]

/-! ### Two blocks side by side -/

/-- `R` relates what each of the six shared meanings does to `s` and to `t`; REGISTER's operand is read through a map of
its own on either side. -/
structure RelatesMeanings {H H' : Type} (R : Outcome H → Outcome H' → Prop) (value : Handler → H)
    (value' : Handler → H') (s : State H) (t : State H') : Prop where
  realTime : ∀ k, R (receiveRealTime k s) (receiveRealTime k t)
  status : ∀ b, R (receiveStatus b s) (receiveStatus b t)
  data : ∀ d, R (receiveData d s) (receiveData d t)
  unrecognised : R (receiveUnrecognised s) (receiveUnrecognised t)
  init : R (execInit s) (execInit t)
  register : ∀ kind h, R (execRegister kind (Option.map value h) s) (execRegister kind (Option.map value' h) t)

section Relates
variable {H H' : Type} {R : Outcome H → Outcome H' → Prop} {value : Handler → H} {value' : Handler → H'}
  {s : State H} {t : State H'}

/-- What relates the meanings of the byte ranges relates RECEIVE, which picks one by the byte alone. -/
theorem RelatesMeanings.execReceive (h : RelatesMeanings R value value' s t) (b : Byte) :
    R (execReceive b s) (execReceive b t) := by
  rcases hk : kindOfRealTime b with _ | k
  · cases hs : isStatusByte b
    · cases hd : isDataByte b
      · simpa only [execReceive_unrecognised hk hs hd] using h.unrecognised
      · simpa only [execReceive_data hk hs hd] using h.data b
    · simpa only [execReceive_status hk hs] using h.status b
  · simpa only [execReceive_realTime hk] using h.realTime k

/-- What relates the six meanings relates every instruction. -/
theorem RelatesMeanings.execOver (h : RelatesMeanings R value value' s t) (i : Instr) :
    R (execOver value i s) (execOver value' i t) := by
  cases i with
  | data d => exact h.data _
  | noteOff c | noteOn c | polyAftertouch c | controlChange c | programChange c | channelAftertouch c | pitchBend c =>
    exact h.status _
  | sysUnrecognised x => exact h.unrecognised
  | rtClock | rtF9 | rtStart | rtContinue | rtStop | rtFD | rtActiveSense | rtReset => exact h.realTime _
  | init => exact h.init
  | register kind o => exact h.register kind o
  | receive b => exact h.execReceive b

end Relates

/-- The machine behind the host's interface is the one in which a tag stands for itself (log 6). -/
theorem execOver_id (i : Instr) (s : State) : execOver id i s = exec i s := by
  cases i with
  | register kind h => exact congrArg (execRegister kind · s) Option.map_id_apply
  | data | noteOff | noteOn | polyAftertouch | controlChange | programChange | channelAftertouch | pitchBend
  | sysUnrecognised | rtClock | rtF9 | rtStart | rtContinue | rtStop | rtFD | rtActiveSense | rtReset | init
  | receive => rfl

/-! ### Handlers do not steer the parser (70_reset_and_hazards.md R119) -/

section Parser
variable {s t : State}

theorem whenInit_sameParser (hi : s.initd = t.initd) {x y : Outcome} (h : SameParser x y) :
    SameParser (whenInit s x) (whenInit t y) := by
  unfold whenInit
  rw [← hi]
  split
  · exact h
  · rfl

theorem receiveData_sameParser (hrs : s.rs = t.rs) (hpd : s.pd = t.pd) (hi : s.initd = t.initd) (d : Byte) :
    SameParser (receiveData d s) (receiveData d t) := by
  refine whenInit_sameParser hi ?_
  rw [← hrs, ← hpd]
  split
  · exact ⟨hrs, hpd, hi⟩
  · split
    · exact ⟨rfl, rfl, hi⟩
    · exact ⟨hrs, rfl, hi⟩
    · exact ⟨hrs, rfl, hi⟩
    · rfl

theorem execRegister_sameParser (hrs : s.rs = t.rs) (hpd : s.pd = t.pd) (hi : s.initd = t.initd) (kind : BitVec 8)
    (h : Option Handler) : SameParser (execRegister kind h s) (execRegister kind h t) := by
  refine whenInit_sameParser hi ?_
  split <;> exact ⟨hrs, hpd, hi⟩

end Parser

/-- Settles O45: no meaning writes of the parser anything that it reads of the table. -/
theorem handlersDoNotSteerParser : Obligations.HandlersDoNotSteerParser := by
  intro i s t hrs hpd hi
  have h : RelatesMeanings SameParser id id s t :=
    { realTime := fun _ => whenInit_sameParser hi ⟨hrs, hpd, hi⟩
      status := fun _ => whenInit_sameParser hi ⟨rfl, rfl, hi⟩
      data := receiveData_sameParser hrs hpd hi
      unrecognised := whenInit_sameParser hi ⟨rfl, rfl, hi⟩
      init := ⟨rfl, rfl, rfl⟩
      register := fun kind _ => execRegister_sameParser hrs hpd hi kind _ }
  simpa only [execOver_id] using h.execOver i

/-! ### Replacing handlers (92_eei_decisions.md D6) -/

section MapHandlers
variable {H H' : Type} (f : H → H')

theorem receiveData_mapHandlers (d : Byte) (s : State H) :
    receiveData d (s.mapHandlers f) = mapOutcome f (receiveData d s) := by
  refine whenInit_mapHandlers f s ?_
  simp only [State.mapHandlers_rs, State.mapHandlers_pd]
  split
  · exact done_mapHandlers f s _
  · split
    · exact done_mapHandlers f { s with pd := [d] } _
    · exact answerDispatch_mapHandlers f s { s with pd := [] } _ _
    · exact answerDispatch_mapHandlers f s { s with pd := [] } _ _
    · rfl

theorem execInit_mapHandlers (s : State H) : execInit (s.mapHandlers f) = mapOutcome f (execInit s) := by
  have htable : (emptyTable : HandlerTable H).map (Option.map f) = emptyTable := by simp [emptyTable]
  unfold execInit
  rw [← done_mapHandlers]
  simp only [State.mapHandlers, htable]

theorem execRegister_mapHandlers (kind : BitVec 8) (h : Option H) (s : State H) :
    execRegister kind (h.map f) (s.mapHandlers f) = mapOutcome f (execRegister kind h s) := by
  refine whenInit_mapHandlers f s ?_
  split
  · exact done_mapHandlers f s _
  · rw [State.setSlot_mapHandlers]
    exact done_mapHandlers f _ _

theorem execOver_mapHandlers (value : Handler → H) (i : Instr) (s : State H) :
    execOver (fun h => f (value h)) i (s.mapHandlers f) = mapOutcome f (execOver value i s) := by
  have h : RelatesMeanings (fun x y => y = mapOutcome f x) value (fun h => f (value h)) s (s.mapHandlers f) :=
    { realTime := fun k => whenInit_mapHandlers f s (answerDispatch_mapHandlers f s s k _)
      status := fun b => whenInit_mapHandlers f s (done_mapHandlers f { s with rs := some b, pd := [] } _)
      data := fun d => receiveData_mapHandlers f d s
      unrecognised := whenInit_mapHandlers f s (done_mapHandlers f { s with rs := none, pd := [] } _)
      init := execInit_mapHandlers f s
      register := fun kind o => by
        simpa only [Option.map_map, Function.comp_def] using execRegister_mapHandlers f kind (o.map value) s }
  exact h.execOver i

/-- Replacing handlers leaves the wire alone, so the same request is taken, and the operation does not see handlers
either. -/
theorem stepOver_mapHandlers (value : Handler → H) (s : State H) :
    stepOver (fun h => f (value h)) (s.mapHandlers f) = mapOutcome f (stepOver value s) := by
  obtain hp | ⟨w, rest, hp⟩ | ⟨w, rest, e, hp, hd⟩ | ⟨w, rest, i, hp, hd⟩ := fetch_cases s
  all_goals have hp' := (State.mapHandlers_pending f s).trans hp
  · simp only [stepOver, fetch_of_idle hp, fetch_of_idle hp', mapOutcome]
  · simp only [stepOver, fetch_of_handler hp, fetch_of_handler hp', mapOutcome]
  · simp only [stepOver, fetch_of_decode_error hp hd, fetch_of_decode_error hp' hd, mapOutcome]
  · simp only [stepOver, fetch_of_decode_ok hp hd, fetch_of_decode_ok hp' hd]
    exact execOver_mapHandlers f value i { s with pending := rest }

end MapHandlers

/-- Settles O50: every operation and the taking of requests commute with replacing handlers, and a tag that stands for
itself makes no difference. -/
theorem handlerTypeIsAnArgument : Obligations.HandlerTypeIsAnArgument := by
  refine ⟨fun H H' value f => ⟨execOver_mapHandlers f value, stepOver_mapHandlers f value⟩, execOver_id, fun s => ?_⟩
  unfold stepOver step
  cases fetch s with
  | run i s' => exact execOver_id i s'
  | idle | refused r => rfl

/-! ### Renaming handlers on the wire as well -/

/-- The word with its handler's tag renamed. -/
def renameWord (f : Handler → Handler) : WireWord → WireWord
  | .stream b => .stream b
  | .port p => .port { p with tag := (f ⟨p.tag⟩).tag }

/-- The instruction with its handler renamed; only REGISTER has one. -/
def renameInstr (f : Handler → Handler) : Instr → Instr
  | .register kind h => .register kind (h.map f)
  | i => i

section Rename
variable (f : Handler → Handler)

theorem Request.rename_mk (o : Origin) (w : WireWord) : Request.rename f ⟨o, w⟩ = ⟨o, renameWord f w⟩ := by
  cases w <;> rfl

theorem State.rename_pending_cons {s : State} {o : Origin} {w : WireWord} {rest : List Request}
    (hp : s.pending = ⟨o, w⟩ :: rest) :
    (s.rename f).pending = ⟨o, renameWord f w⟩ :: rest.map (Request.rename f) := by
  simp only [State.rename, hp, List.map_cons, Request.rename_mk]

/-- No byte of the stream has a handler. -/
theorem renameInstr_decodeByte (b : Byte) : renameInstr f (decodeByte b) = decodeByte b := by
  have hb := encode_decodeByte b
  generalize decodeByte b = i at hb
  cases i with
  | register kind h => cases hb
  | data | noteOff | noteOn | polyAftertouch | controlChange | programChange | channelAftertouch | pitchBend
  | sysUnrecognised | rtClock | rtF9 | rtStart | rtContinue | rtStop | rtFD | rtActiveSense | rtReset | init
  | receive => rfl

theorem decodePort_rename (p : PortWord) :
    decodePort { p with tag := (f ⟨p.tag⟩).tag } = (decodePort p).map (renameInstr f) := by
  unfold decodePort
  simp only [apply_ite (Except.map (renameInstr f))]
  have hh : PortWord.handler { p with tag := (f ⟨p.tag⟩).tag } = p.handler.map f := by
    cases hv : p.valid <;> simp [PortWord.handler, hv]
  rw [hh]
  rfl

/-- A renamed word decodes to the renamed instruction, and is refused when the word is. -/
theorem decode_renameWord (w : WireWord) : decode (renameWord f w) = (decode w).map (renameInstr f) := by
  cases w with
  | stream b => exact congrArg Except.ok (renameInstr_decodeByte f b).symm
  | port p => exact decodePort_rename f p

/-- Performing the renamed instruction is reading the wire's tags through the renaming. -/
theorem exec_renameInstr (i : Instr) (s : State) : exec (renameInstr f i) s = execOver f i s := by
  cases i <;> rfl

/-- Renaming is replacing in the block and renaming the requests, which no operation writes. -/
theorem renameOutcome_exec (i : Instr) (s : State) :
    renameOutcome f (exec i s) = withPending (s.pending.map (Request.rename f)) (mapOutcome f (exec i s)) := by
  cases hx : exec i s with
  | next t => simp only [renameOutcome, mapOutcome, withPending, State.rename, (exec_next hx).pending]
  | fault r | refused r => rfl

/-- The renamed instruction on the renamed state. -/
theorem exec_rename (i : Instr) (s : State) : exec (renameInstr f i) (s.rename f) = renameOutcome f (exec i s) :=
  calc exec (renameInstr f i) (s.rename f)
      = withPending (s.pending.map (Request.rename f)) (exec (renameInstr f i) (s.mapHandlers f)) :=
        exec_withPending _ (s.mapHandlers f) _
    _ = withPending (s.pending.map (Request.rename f)) (mapOutcome f (execOver id i s)) := by
        rw [exec_renameInstr]
        exact congrArg _ (execOver_mapHandlers f id i s)
    _ = renameOutcome f (exec i s) := by rw [execOver_id, renameOutcome_exec]

end Rename

/-- Settles O46: the renamed request is refused or decodes as the request does, and the operation commutes with the
renaming. -/
theorem handlersAreOpaque : Obligations.HandlersAreOpaque := by
  intro f s
  obtain hp | ⟨w, rest, hp⟩ | ⟨w, rest, e, hp, hd⟩ | ⟨w, rest, i, hp, hd⟩ := fetch_cases s
  · have hp' : (s.rename f).pending = [] := by simp [State.rename, hp]
    rw [step_of_idle hp, step_of_idle hp', renameOutcome]
  · rw [step_of_handler_request hp, step_of_handler_request (State.rename_pending_cons f hp), renameOutcome]
  · have hd' := decode_renameWord f w
    rw [hd] at hd'
    rw [step_of_decode_error hp hd, step_of_decode_error (State.rename_pending_cons f hp) hd', renameOutcome]
  · have hd' := decode_renameWord f w
    rw [hd] at hd'
    rw [step_of_decode_ok hp hd, step_of_decode_ok (State.rename_pending_cons f hp) hd']
    exact exec_rename f i { s with pending := rest }

end Sys2Proof.Machine
end
